-- ==== Sys2Proof/Word.lean ====
section
/-! DEFINITION. The bytes, addresses and index types every other file uses, what a target does in an exchange, and the read
and the write of one place of a fixed-size table. -/

namespace Sys2Proof

/-- One byte of a trunk frame, one cell of a branch, one code of 12.2. -/
abbrev Byte := BitVec 8

/-- A 16-bit field of the trunk: a unit address, a generation, a quiesce timeout (12.1). -/
abbrev Half := BitVec 16

/-- One of the four branches, B0 to B3. -/
abbrev BranchId := Fin 4

/-- One of the sixteen outstanding entries, E0 to E15 (R24). -/
abbrev EntryId := Fin 16

/-- One of the thirty-two slots of a bank (R3). -/
abbrev SlotId := Fin 32

/-- A rate code: RATE1 is the high bit and RATE0 the low bit (R191). -/
abbrev RateCode := BitVec 2

/-- What the addressed target does in one exchange, up to its closing mark. The manual gives a target BUSY and REJECT as
answers to a READ as well as to a WRITE (4.6, R79, R100) and gives their form on the wire for a WRITE alone, the status
cells of R69. DESIGN CHOICE: `busy` and `rejected` are those answers whatever their form. -/
inductive TargetAnswer where
  /-- The presence slot stays high (R68). -/
  | absent
  /-- The target is present and sends these cells in order; a cell it did not drive reads 0xFF (R69, R70). -/
  | cells (sent : List Byte)
  /-- The target is present and answers BUSY. -/
  | busy
  /-- The target is present and answers REJECT. -/
  | rejected
  deriving DecidableEq, Repr

/-- The high byte of a two-byte field, sent first (12.1). -/
def Half.high (w : Half) : Byte := w.extractLsb' 8 8

/-- The low byte of a two-byte field, sent second (12.1). -/
def Half.low (w : Half) : Byte := w.extractLsb' 0 8

/-- A two-byte field read high byte first (12.1). -/
def Half.ofBytes (high low : Byte) : Half := high ++ low

/-- A number sent as one byte holding the number itself (12.1). -/
def Byte.ofCount (n : Nat) : Byte := BitVec.ofNat 8 n

/-- The element of a fixed-size table at an index. -/
def Table.get {α : Type} {n : Nat} (v : Vector α n) (i : Fin n) : α := v[i.val]

/-- A fixed-size table with the element at one index replaced. -/
def Table.set {α : Type} {n : Nat} (v : Vector α n) (i : Fin n) (x : α) : Vector α n :=
  v.set i.val x

/-- A table of four with a function applied to each element. -/
def Table.map {α β : Type} (f : α → β) (v : Vector α 4) : Vector β 4 := #v[f v[0], f v[1], f v[2], f v[3]]

theorem Table.map_eq {α β : Type} (f : α → β) (v : Vector α 4) : Table.map f v = v.map f := by
  ext i hi
  have : i = 0 ∨ i = 1 ∨ i = 2 ∨ i = 3 := by omega
  rcases this with rfl | rfl | rfl | rfl <;> simp [Table.map]

@[simp] theorem Table.get_map {α β : Type} (f : α → β) (v : Vector α 4) (i : Fin 4) :
    Table.get (Table.map f v) i = f (Table.get v i) := by
  simp [Table.get, Table.map_eq]

@[simp] theorem Table.get_set_self {α : Type} {n : Nat} (v : Vector α n) (i : Fin n) (x : α) :
    Table.get (Table.set v i x) i = x := by
  simp [Table.get, Table.set]

@[simp] theorem Table.get_set_ne {α : Type} {n : Nat} (v : Vector α n) {i j : Fin n} (x : α)
    (h : j ≠ i) : Table.get (Table.set v i x) j = Table.get v j := by
  have h' : i.val ≠ j.val := fun e => h (Fin.ext e.symm)
  simp [Table.get, Table.set, h']

theorem Table.get_set {α : Type} {n : Nat} (v : Vector α n) (i j : Fin n) (x : α) :
    Table.get (Table.set v i x) j = if j = i then x else Table.get v j := by
  by_cases h : j = i
  · subst h; simp
  · simp [h]

@[simp] theorem Table.get_replicate {α : Type} {n : Nat} (x : α) (i : Fin n) :
    Table.get (Vector.replicate n x) i = x := by
  simp [Table.get]

end Sys2Proof
end

