-- ==== Sys2Proof/Syntax.lean ====
section
/-! DEFINITION. The commands of the FH416: one constructor per row of spec/opcode_table.json. A command is one happening of
the part (an event on TRXD, a frame taken by admission, the end of an exchange or of a frame, a timer running out, a
supply or reset pin event). An operand is what the outside gives in that happening: a character, the level of a line when
it is sampled, the cells a target sent, the strap levels. The requests themselves carry no operand: admission reads them
from the head of the inbound queue (R44). -/

namespace Sys2Proof

inductive Instr where
  /-- A good character ends on TRXD (R165, R169). -/
  | receiveCharacter (value : Byte)
  /-- The second CRC character of a frame ends (R170). -/
  | frameReceived (value : Byte)
  /-- A character's stop bit is sampled at spacing (R165, R172). -/
  | characterError
  /-- The gap timer runs out (R171). -/
  | gapTimeout
  /-- TRXD has stayed at spacing for two character times (R177). -/
  | breakStart
  /-- TRXD returns to marking after a break (R178). -/
  | breakEnd
  /-- Admission takes a READ at the head (R56). -/
  | read
  /-- Admission takes a WRITE at the head (R59). -/
  | write
  /-- Admission takes a WRITE_POSTED at the head (R61). -/
  | writePosted
  /-- Admission takes a WATCH at the head (R95). -/
  | watch
  /-- Admission takes a CANCEL at the head (R121). -/
  | cancel
  /-- Admission takes an IDENTIFY at the head (R181). -/
  | identify
  /-- Admission takes a GET_STATUS at the head (R182). -/
  | getStatus
  /-- Admission takes a STAGE_ROUTE at the head (R11). -/
  | stageRoute
  /-- Admission takes a READ_ROUTE at the head (R13). -/
  | readRoute
  /-- Admission takes a COMMIT in IMMEDIATE mode at the head (R16). -/
  | commitImmediate
  /-- Admission takes a COMMIT in QUIESCE mode at the head (R17). -/
  | commitQuiesce
  /-- Admission takes a DISCARD at the head (R12). -/
  | discard
  /-- Admission takes a SET_BRANCH with enabled yes at the head (R91). -/
  | setBranchEnable
  /-- Admission takes a SET_BRANCH with enabled no at the head (R89). -/
  | setBranchDisable
  /-- Admission takes a GET_BRANCH at the head (R92). -/
  | getBranch
  /-- Admission takes a SET_ARBITER at the head (R147). -/
  | setArbiter
  /-- Admission takes a RESET with scope SOFT at the head (R184). -/
  | resetSoft
  /-- Admission takes a RESET with scope FULL at the head (R184). -/
  | resetFull
  /-- Admission takes a frame whose kind code names no request kind (R52). -/
  | unknownKind
  /-- An IDLE engine takes the head item and samples its lines, `true` for high (R77). -/
  | engineTakeItem (branch : BranchId) (bck bda : Bool)
  /-- An exchange's closing mark ends (R78). `answer` is what the target did in it, and `bck` and `bda` the lines at the line
  sample of an immediate repeat. -/
  | exchangeEnd (branch : BranchId) (answer : TargetAnswer) (bck bda : Bool)
  /-- A hold outlasts the hold timeout (R66). -/
  | holdTimeout (branch : BranchId)
  /-- The retry timer runs out and the lines are sampled (R79). -/
  | retryTimerExpiry (branch : BranchId) (bck bda : Bool)
  /-- A recovery sequence of an item or of a SOFT reset ends and the lines are sampled (R82). -/
  | recoveryEnd (branch : BranchId) (bck bda : Bool)
  /-- The recovery timer of a FAULTED engine runs out (R87). -/
  | recoveryTimerExpiry (branch : BranchId)
  /-- A periodic recovery attempt ends and the lines are sampled (R87). -/
  | periodicRecoveryEnd (branch : BranchId) (bck bda : Bool)
  /-- The watch timer of an entry runs out (R104). -/
  | watchTimerExpiry (entry : EntryId)
  /-- The DATA count is 0 while a commit is pending (R18). -/
  | quiesceDrain
  /-- The time remaining of the pending commit reaches 0 (R19). -/
  | quiesceTimeout
  /-- The last byte of a frame leaves TTXD (R146). `straps` is the level of RATE1 and RATE0, which a FULL reset that takes
  effect here samples (R191). -/
  | frameEnd (straps : RateCode)
  /-- A source is ready while TTXD is idle (R137). -/
  | sourceReadyIdle
  /-- VDD falls below 2.7 V (R189). -/
  | powerFail
  /-- VDD has stayed above 2.9 V for 4 ms; `straps` is the level of RATE1 and RATE0 (R189, R191). -/
  | powerStable (straps : RateCode)
  /-- RSTn has been low for 2 µs (R189). -/
  | rstnAssert
  /-- RSTn returns high; `straps` is the level of RATE1 and RATE0 (R190, R191). -/
  | rstnRelease (straps : RateCode)
  /-- TRXD falls from marking to spacing; `falseStart` says that the sample half a bit period later finds marking (R165). -/
  | startOfCharacter (falseStart : Bool)
  /-- TRXD returns to marking after spacing shorter than two character times (R168). -/
  | lineReturnsToMarking
  /-- The closing mark that a FULL reset forms on a branch ends (R93). -/
  | resetClosingMarkEnd (branch : BranchId)
  deriving DecidableEq, Repr

end Sys2Proof
end

