-- ==== Sys2Proof/Decode.lean ====
section
/-! DEFINITION. The command that a word spells by the bits of spec/opcode_table.json. No row of the table gives bits (every
row's "fields" is empty and none has "fixed"), so no word spells a command. The decoder of the request frames that travel
on the trunk is Sys2Proof/Machine/Operands.lean. -/

namespace Sys2Proof

/-- No row of the table has bits: every word is turned away. -/
def decodeTableWord (_nbits _w : Nat) : Option Instr := none

end Sys2Proof
end

