-- ==== Sys2Proof/Config.lean ====
section
/-! DEFINITION. What the FH416 fixes (capacities, identity, the time base of the model) and the free values, which the
manual leaves open: each is a constant with no body, so that no statement can rest on what it is. -/

namespace Sys2Proof

/-- What the release of an entry can make due at another block: the drain of a pending commit, and the taking of a waiting
head (R146). -/
inductive Consequence where
  | drain | head
  deriving DecidableEq, Repr

namespace Config

/-- Entries of DATA class that may be in use at once (R24). -/
def dataEntries : Nat := 14

/-- Slots of the inbound queue (R173). -/
def inboundSlots : Nat := 8

/-- Notices the notice queue holds (R154). -/
def noticeSlots : Nat := 8

/-- The vendor code of IDENTIFY (R181). -/
def vendorCode : Half := 0x5741#16

/-- The part code of IDENTIFY (R181). -/
def partCode : Half := 0x0416#16

/-- The revision of IDENTIFY (R181). -/
def revision : Byte := 1#8

/-- DESIGN CHOICE: the model counts time in units of 1/1152 µs, the longest unit in which every duration of the manual (a
millisecond, half a bit period at each of the four trunk rates, a branch bit period) is a whole number. -/
def unitsPerUs : Nat := 1152

/-- One millisecond. -/
def unitsPerMs : Nat := 1152000

/-- The time remaining of a recovery timer when it starts, 100 ms (R86, R87). -/
def recoveryUnits : Nat := 100 * unitsPerMs

/-- FREE VALUE (R102: timers of equal expiry may stand in either order). When the `k`th free choice places a timer, says
whether it stands before the `i`th of the timers that have the same time remaining. -/
opaque timerTie : Nat → Nat → Bool

/-- FREE VALUE (R160: notices handed by different producers may be taken in either order). When taking a head both meets
the CREDIT trigger and hands another notice, says whether the `k`th free choice takes the CREDIT first. -/
opaque creditFirst : Nat → Bool

/-- FREE VALUE (R146: what the release of an entry makes due is taken before or after the decision at that frame's end).
The consequences that the `k`th free choice takes before the decision, in their order. -/
opaque beforeDecision : Nat → List Consequence

/-- FREE VALUE (R138: sources that become ready together on an idle TTXD are taken one after the other). The place, among
the ready sources, of the one that the `k`th free choice takes first. -/
opaque firstReady : Nat → Nat

end Config

end Sys2Proof
end

