-- ==== Sys2Proof/Machine/Types.lean ====
section
/-! DEFINITION. The names and records of the manual: the code-valued fields of 12.2, the route record, the requests a frame
can carry, the entry and member records, the engine, arbiter, notice and receiver records. Plain data. Durations are
natural numbers of the model's time unit (Config.unitsPerMs), counts and lengths are natural numbers, and what crosses the
trunk as a byte with no further meaning is a byte. -/

namespace Sys2Proof.Machine

/-! ## Codes -/

/-- The level of TRXD: marking is high (R164, 11.6). -/
inductive Level where
  | marking | spacing
  deriving DecidableEq, Repr

/-- The class of a request kind (R25). -/
inductive RequestClass where
  | data | control
  deriving DecidableEq, Repr

/-- The request kinds of 12.2. -/
inductive Kind where
  | read | write | writePosted | watch
  | cancel | identify | getStatus | stageRoute | readRoute | commit | discard
  | setBranch | getBranch | setArbiter | reset
  deriving DecidableEq, Repr

/-- The status codes of 12.2, which serve as member outcomes too. `partialResult` is PARTIAL. -/
inductive Status where
  | ok | limit | partialResult | cancelled | tooLate | notFound | dropped
  | badRequest | noRoute | accessDenied | range | branchDown
  | noDevice | busy | rejected | checkError | holdTimeout | branchFault
  | staleGeneration | tableInvalid | stagingLocked | commitBusy | quiesceTimeout
  deriving DecidableEq, Repr

/-- What a slot does (R1). -/
inductive RouteKind where
  | unused | direct | group | deny
  deriving DecidableEq, Repr

/-- Why a slot fails validation (R9). -/
inductive ValidityReason where
  | order | size | overlap | member | register | rights
  deriving DecidableEq, Repr

/-- The bank READ_ROUTE names (R13). -/
inductive BankSelector where
  | active | staging
  deriving DecidableEq, Repr

/-- The mode of a COMMIT (R14). -/
inductive CommitMode where
  | immediate | quiesce
  deriving DecidableEq, Repr

/-- The state of a branch engine (R75). -/
inductive EngineState where
  | disabled | idle | exchange | retryWait | recovery | faulted
  deriving DecidableEq, Repr

/-- A last fault reason or the reason of a BRANCH_STATE (12.2). -/
inductive BranchReason where
  | none | stuckLine | hold | recovered
  deriving DecidableEq, Repr

/-- The reason of a LINK_ERROR (R153). -/
inductive LinkReason where
  | char | length | crc | gap
  deriving DecidableEq, Repr

/-- The cause READY carries (R163). -/
inductive ResetCause where
  | power | pin | full | soft
  deriving DecidableEq, Repr

/-- The scope of a RESET (R184). -/
inductive ResetScope where
  | soft | full
  deriving DecidableEq, Repr

/-- How the arbiter chooses a new grant (R136). -/
inductive ArbiterMode where
  | linear | round
  deriving DecidableEq, Repr

/-- Whether a burst ends early for a waiting winner (R136). -/
inductive YieldPolicy where
  | atFrame | atBurst
  deriving DecidableEq, Repr

/-- One of the six source queues of the arbiter (R135). -/
inductive Source where
  | branch (b : BranchId)
  | ctl
  | ntc
  deriving DecidableEq, Repr

/-! ## The route table (Section 1) -/

/-- The rights of a slot (R1, R2). -/
structure Rights where
  read : Bool
  write : Bool
  watch : Bool
  deriving DecidableEq, Repr

/-- A member target as STAGE_ROUTE delivers it: every field is stored at any value 0..255 (R1). -/
structure RouteMember where
  branch : Byte
  device : Byte
  base : Byte
  deriving DecidableEq, Repr

/-- A route record (R1). -/
structure Route where
  kind : RouteKind
  base : Half
  limit : Half
  rights : Rights
  members : List RouteMember
  deriving DecidableEq, Repr

/-- A bank: 32 route records (R3). -/
abbrev Bank := Vector Route 32

/-- What a failed validation reports (R9). -/
structure ValidityFailure where
  slot : SlotId
  reason : ValidityReason
  other : Option SlotId
  deriving DecidableEq, Repr

/-- The pending-commit record (R3). -/
structure PendingCommit where
  entry : EntryId
  tag : Byte
  remaining : Nat
  deriving DecidableEq, Repr

/-- The route table unit (R3). -/
structure RouteUnit where
  active : Bank
  staging : Bank
  generation : Half
  pendingCommit : Option PendingCommit
  deriving DecidableEq, Repr

/-! ## Branch engines (Section 4) -/

/-- The branch configuration record (R74). -/
structure BranchConfig where
  enabled : Bool
  speed : Nat
  hold : Nat
  busyLimit : Nat
  retryDelay : Nat
  checkLimit : Nat
  deriving DecidableEq, Repr

/-- An item: a reference to one member of one entry (R76). -/
structure Item where
  entry : EntryId
  member : Nat
  deriving DecidableEq, Repr

/-- Why the recovery sequence of an engine in RECOVERY runs (R83). -/
inductive RecoveryCause where
  | beforeTry
  | afterHold
  | softReset
  deriving DecidableEq, Repr

/-- What the FH416 does with BCK and BDA of a branch: both released, an exchange with the cells the FH416 sends in it, a
recovery sequence, a periodic recovery attempt, or the closing mark that a FULL reset forms. -/
inductive Wire where
  | released
  | exchange (sent : List Byte)
  | recovery (cause : RecoveryCause)
  | attempt
  | closingMark
  deriving DecidableEq, Repr

/-- A branch engine (R75). `copy` is the configuration copy of the try or sequence in progress (R74). The timers are in
time units, absent while stopped. -/
structure Engine where
  state : EngineState
  disablePending : Bool
  config : BranchConfig
  queue : List Item
  inService : Option Item
  busyUsed : Nat
  checkUsed : Nat
  retryTimer : Option Nat
  recoveryTimer : Option Nat
  lastFault : BranchReason
  copy : Option BranchConfig
  wire : Wire
  deriving DecidableEq, Repr

/-- What a try that ran to its closing mark gives (R69, R70): ACCEPT or a good read with the value read (empty for a
WRITE), BUSY, a check failure, REJECT, or NO_DEVICE. -/
inductive TryResult where
  | good (value : List Byte)
  | busy
  | checkFailure
  | rejected
  | noDevice
  deriving DecidableEq, Repr

/-! ## Trunk arbiter configuration (Section 8) -/

/-- The arbiter configuration (R136). -/
structure ArbiterConfig where
  mode : ArbiterMode
  burst : Nat
  yieldPolicy : YieldPolicy
  order : List Source
  deriving DecidableEq, Repr

/-! ## Requests and responses -/

/-- A frame as the trunk carries it between its length byte and its CRC (R166). -/
structure Frame where
  kind : Byte
  tag : Byte
  payload : List Byte
  deriving DecidableEq, Repr

/-- What a well-formed request frame asks for (12.4). -/
inductive Request where
  | read (address : Half) (length : Nat)
  | write (posted : Bool) (address : Half) (data : List Byte)
  | watch (address : Half) (interval limit : Nat) (mask pattern : List Byte)
  | cancel (target : Byte)
  | identify
  | getStatus
  | stageRoute (slot : SlotId) (record : Route)
  | readRoute (bank : BankSelector) (slot : SlotId)
  | commit (expected : Half) (mode : CommitMode) (timeout : Half)
  | discard
  | setBranch (branch : BranchId) (config : BranchConfig)
  | getBranch (branch : BranchId)
  | setArbiter (config : ArbiterConfig)
  | reset (scope : ResetScope)
  deriving DecidableEq, Repr

/-- The snapshot of GET_STATUS (R182). The time remaining is in milliseconds. -/
structure Snapshot where
  inboundFree : Nat
  dataInUse : Nat
  controlInUse : Nat
  commitRemaining : Option Nat
  arbiterMode : ArbiterMode
  branches : Vector EngineState 4
  noticeDepth : Nat
  lost : Bool
  generation : Half
  deriving DecidableEq, Repr

/-- What a response carries after its status (R148 to R150), fixed when the entry completes (R38). -/
inductive Reply where
  | nothing
  | read (address : Half) (length : Nat) (data : Option (List Byte))
  | write (address : Half) (length : Nat) (outcomes : List (BranchId × Status))
  | watch (address : Half) (length : Nat) (value : Option (List Byte))
  | cancel (target : Byte)
  | identify (rate : RateCode) (generation : Half)
  | status (snapshot : Snapshot)
  | stageRoute (slot : SlotId)
  | readRoute (bank : BankSelector) (slot : SlotId) (record : Route) (generation : Half)
  | commit (generation : Half) (failure : Option ValidityFailure)
  | discard (generation : Half)
  | setBranch (branch : BranchId) (state : EngineState) (disablePending : Bool)
  | getBranch (branch : BranchId) (config : BranchConfig) (state : EngineState) (disablePending : Bool)
      (depth : Nat) (lastFault : BranchReason)
  | setArbiter (config : ArbiterConfig)
  | reset (scope : ResetScope)
  deriving DecidableEq, Repr

/-! ## Outstanding table (Section 2) -/

/-- The state of an entry (2.3). -/
inductive EntryState where
  | free | queued | active | waiting | held | complete | sending
  deriving DecidableEq, Repr

/-- The state of a member (R27). -/
inductive MemberState where
  | pending | inService | finished | dropped
  deriving DecidableEq, Repr

/-- A member record (R27). -/
structure Member where
  branch : BranchId
  device : Byte
  register : Byte
  state : MemberState
  outcome : Option Status
  deriving DecidableEq, Repr

/-- A watch record (R96). The interval is in milliseconds. -/
structure WatchRecord where
  mask : List Byte
  pattern : List Byte
  interval : Nat
  remaining : Nat
  last : Option (List Byte)
  deriving DecidableEq, Repr

/-- An entry record (R26). `group` marks a GROUP entry (R108), `reply` is what the response will carry once the entry has
completed (R38), and `scope` is the scope a RESET records with its entry (R184). -/
structure Entry where
  state : EntryState
  cls : RequestClass
  kind : Byte
  tag : Byte
  posted : Bool
  generation : Half
  address : Option Half
  length : Option Nat
  group : Bool
  members : List Member
  data : List Byte
  watch : Option WatchRecord
  cancelRequested : Bool
  status : Option Status
  source : Source
  reply : Reply
  scope : Option ResetScope
  deriving DecidableEq, Repr

/-- The outstanding table: 16 entries and the two counts kept beside them (R24). -/
structure OutstandingTable where
  entries : Vector Entry 16
  dataInUse : Nat
  controlInUse : Nat
  deriving DecidableEq, Repr

/-- A timer of the watch timer list (R102). -/
structure WatchTimer where
  entry : EntryId
  remaining : Nat
  deriving DecidableEq, Repr

/-! ## Trunk arbiter, notices, link (Sections 8 to 10) -/

/-- The trunk arbiter (R136). The source queue of NTC is the notice queue (R152). -/
structure Arbiter where
  config : ArbiterConfig
  decisionMode : ArbiterMode
  roundSet : List Source
  grant : Option (Source × Nat)
  branchQueues : Vector (List EntryId) 4
  ctlQueue : List EntryId
  deriving DecidableEq, Repr

/-- A notice with its payload (R153). -/
inductive Notice where
  | ready (cause : ResetCause) (generation : Half)
  | resync (tag : Option Byte)
  | credit
  | overrun (first : Byte) (count : Nat)
  | linkError (first : LinkReason) (count : Nat)
  | postedFailed (tag : Byte) (status : Status) (outcomes : List (BranchId × Status))
  | duplicateTag (tag kind : Byte)
  | branchState (branch : BranchId) (state : EngineState) (reason : BranchReason)
  deriving DecidableEq, Repr

/-- The notice unit (R152). -/
structure NoticeUnit where
  queue : List Notice
  lost : Bool
  sequence : Byte
  deriving DecidableEq, Repr

/-- The receive state (R168). `inBreak` is BREAK. -/
inductive ReceiveState where
  | hunt | length | body | check | inBreak
  deriving DecidableEq, Repr

/-- The partial frame: the length once it has been received, and the body and CRC bytes so far (R168). -/
structure PartialFrame where
  length : Option Nat
  body : List Byte
  crc : List Byte
  deriving DecidableEq, Repr

/-- The trunk receiver (R168). The timers are in time units, absent while stopped. `inCharacter` says that the fall that
began a character has been seen and its stop bit has not been sampled yet (R165); `cut` that a character a reset cut off has
not come to its end on the line yet (R187); `breakEnding` that a reset has just taken effect in BREAK, so that the end of
that break may still come together with it (R188). -/
structure Receiver where
  state : ReceiveState
  building : Option PartialFrame
  gap : Option Nat
  waiting : Bool
  spacing : Option Nat
  inCharacter : Bool
  cut : Bool
  breakEnding : Bool
  inbound : List Frame
  advertised : Nat
  lastTag : Option Byte
  rate : RateCode
  deriving DecidableEq, Repr

/-- Whose frame is on TTXD. -/
inductive OnLine where
  | response (entry : EntryId)
  | notice
  deriving DecidableEq, Repr

/-- The frame in transmission (R179): whose it is and its characters, start byte to CRC. -/
structure Sending where
  what : OnLine
  bytes : List Byte
  deriving DecidableEq, Repr

/-- The conditions that stop the part (R189): power-on, RSTn, and whether a power-on condition arose since the last
start-up (R190). -/
structure Supply where
  powerCondition : Bool
  pinCondition : Bool
  powerSinceStart : Bool
  deriving DecidableEq, Repr

end Sys2Proof.Machine
end

