-- ==== Sys2Proof/Machine/Codes.lean ====
section
/-! DEFINITION. The code tables of 12.2: each name's byte, and the name a byte stands for where a request carries it. -/

namespace Sys2Proof.Machine

/-- The kind code of a request kind (12.2). -/
def Kind.code : Kind → Byte
  | .read => 0x01#8 | .write => 0x02#8 | .writePosted => 0x03#8 | .watch => 0x04#8
  | .cancel => 0x10#8 | .identify => 0x11#8 | .getStatus => 0x12#8 | .stageRoute => 0x13#8
  | .readRoute => 0x14#8 | .commit => 0x15#8 | .discard => 0x16#8 | .setBranch => 0x17#8
  | .getBranch => 0x18#8 | .setArbiter => 0x19#8 | .reset => 0x1A#8

/-- Every request kind. -/
def Kind.all : List Kind :=
  [.read, .write, .writePosted, .watch, .cancel, .identify, .getStatus, .stageRoute, .readRoute,
    .commit, .discard, .setBranch, .getBranch, .setArbiter, .reset]

/-- The request kind a kind code names, if it names one (R52). -/
def Kind.ofCode (c : Byte) : Option Kind := Kind.all.find? (fun k => k.code == c)

/-- The kind code of a response frame (12.2). -/
def responseCode : Byte := 0x80#8

/-- The kind code of a notice frame (12.2). -/
def noticeCode : Byte := 0x81#8

/-- The class of a kind code: DATA for the four data kinds, CONTROL for every other code (R25). -/
def classOf (c : Byte) : RequestClass :=
  match Kind.ofCode c with
  | some .read | some .write | some .writePosted | some .watch => .data
  | some .cancel | some .identify | some .getStatus | some .stageRoute | some .readRoute
  | some .commit | some .discard | some .setBranch | some .getBranch | some .setArbiter
  | some .reset | none => .control

/-- The status codes of 12.2. -/
def Status.code : Status → Byte
  | .ok => 0x00#8 | .limit => 0x01#8 | .partialResult => 0x02#8 | .cancelled => 0x03#8
  | .tooLate => 0x04#8 | .notFound => 0x05#8 | .dropped => 0x06#8
  | .badRequest => 0x10#8 | .noRoute => 0x11#8 | .accessDenied => 0x12#8 | .range => 0x13#8
  | .branchDown => 0x14#8
  | .noDevice => 0x20#8 | .busy => 0x21#8 | .rejected => 0x22#8 | .checkError => 0x23#8
  | .holdTimeout => 0x24#8 | .branchFault => 0x25#8
  | .staleGeneration => 0x30#8 | .tableInvalid => 0x31#8 | .stagingLocked => 0x32#8
  | .commitBusy => 0x33#8 | .quiesceTimeout => 0x34#8

/-- A yes/no field: 0 for no and 1 for yes (12.1). -/
def yesNo (b : Bool) : Byte := if b then 1#8 else 0#8

/-- The route kind codes (12.2). -/
def RouteKind.code : RouteKind → Byte
  | .unused => 0#8 | .direct => 1#8 | .group => 2#8 | .deny => 3#8

/-- The validity reason codes (12.2). -/
def ValidityReason.code : ValidityReason → Byte
  | .order => 1#8 | .size => 2#8 | .overlap => 3#8 | .member => 4#8 | .register => 5#8
  | .rights => 6#8

/-- The bank selector codes (12.2). -/
def BankSelector.code : BankSelector → Byte
  | .active => 0#8 | .staging => 1#8

/-- The commit mode codes (12.2). -/
def CommitMode.code : CommitMode → Byte
  | .immediate => 0#8 | .quiesce => 1#8

/-- The engine state codes (12.2). -/
def EngineState.code : EngineState → Byte
  | .disabled => 0#8 | .idle => 1#8 | .exchange => 2#8 | .retryWait => 3#8 | .recovery => 4#8
  | .faulted => 5#8

/-- The branch reason codes (12.2). -/
def BranchReason.code : BranchReason → Byte
  | .none => 0#8 | .stuckLine => 1#8 | .hold => 2#8 | .recovered => 3#8

/-- The link error reason codes (12.2). -/
def LinkReason.code : LinkReason → Byte
  | .char => 1#8 | .length => 2#8 | .crc => 3#8 | .gap => 4#8

/-- The reset cause codes (12.2). -/
def ResetCause.code : ResetCause → Byte
  | .power => 1#8 | .pin => 2#8 | .full => 3#8 | .soft => 4#8

/-- The reset scope codes (12.2). -/
def ResetScope.code : ResetScope → Byte
  | .soft => 0#8 | .full => 1#8

/-- The cause READY carries after a RESET of a scope (R163). -/
def ResetScope.cause : ResetScope → ResetCause
  | .soft => .soft | .full => .full

/-- The arbiter mode codes (12.2). -/
def ArbiterMode.code : ArbiterMode → Byte
  | .linear => 0#8 | .round => 1#8

/-- The yield policy codes (12.2). -/
def YieldPolicy.code : YieldPolicy → Byte
  | .atFrame => 0#8 | .atBurst => 1#8

/-- The source codes (12.2). -/
def Source.code : Source → Byte
  | .branch b => Byte.ofCount b.val | .ctl => 4#8 | .ntc => 5#8

/-- The six sources, in the order of their codes. -/
def Source.all : List Source :=
  [.branch 0, .branch 1, .branch 2, .branch 3, .ctl, .ntc]

/-- The notice type codes (12.2). -/
def Notice.code : Notice → Byte
  | .ready .. => 0x01#8 | .resync _ => 0x02#8 | .credit => 0x03#8 | .overrun .. => 0x04#8
  | .linkError .. => 0x05#8 | .postedFailed .. => 0x06#8 | .duplicateTag .. => 0x07#8
  | .branchState .. => 0x08#8

/-- The route kind a byte stands for (R11). -/
def RouteKind.ofCode (c : Byte) : Option RouteKind :=
  [RouteKind.unused, .direct, .group, .deny].find? (fun k => k.code == c)

/-- The bank a selector byte stands for (R13). -/
def BankSelector.ofCode (c : Byte) : Option BankSelector :=
  [BankSelector.active, .staging].find? (fun k => k.code == c)

/-- The commit mode a byte stands for (R14). -/
def CommitMode.ofCode (c : Byte) : Option CommitMode :=
  [CommitMode.immediate, .quiesce].find? (fun k => k.code == c)

/-- The scope a byte stands for (R184). -/
def ResetScope.ofCode (c : Byte) : Option ResetScope :=
  [ResetScope.soft, .full].find? (fun k => k.code == c)

/-- The arbiter mode a byte stands for (R147). -/
def ArbiterMode.ofCode (c : Byte) : Option ArbiterMode :=
  [ArbiterMode.linear, .round].find? (fun k => k.code == c)

/-- The yield policy a byte stands for (R147). -/
def YieldPolicy.ofCode (c : Byte) : Option YieldPolicy :=
  [YieldPolicy.atFrame, .atBurst].find? (fun k => k.code == c)

/-- The source a byte stands for (R147). -/
def Source.ofCode (c : Byte) : Option Source :=
  Source.all.find? (fun x => x.code == c)

/-- The yes/no field a byte stands for (12.1). -/
def yesNoOfCode (c : Byte) : Option Bool :=
  if c = 0#8 then some false else if c = 1#8 then some true else none

/-- The slot a byte names, if it lies in 0..31 (R11, R13). -/
def slotOfCode (c : Byte) : Option SlotId :=
  if h : c.toNat < 32 then some ⟨c.toNat, h⟩ else none

/-- The branch a byte names, if it lies in 0..3 (R53). -/
def branchOfCode (c : Byte) : Option BranchId :=
  if h : c.toNat < 4 then some ⟨c.toNat, h⟩ else none

/-- A two-byte field as it is sent, high byte first (12.1). -/
def halfBytes (w : Half) : List Byte := [w.high, w.low]

end Sys2Proof.Machine
end

