-- ==== Sys2Proof/Machine/Operands.lean ====
section
/-! DEFINITION. Reading a request frame by the layout of its kind (R52, R53, R192, 12.3, 12.4), and writing one. `none` is
malformed: which of the steps of R192 fails is not told apart, since the refusal does not say it. -/

namespace Sys2Proof.Machine

/-- The length byte of a frame: the bytes from the kind through the last payload byte (R166). -/
def Frame.lengthByte (fr : Frame) : Nat := fr.payload.length + 2

/-- The rights byte of a route record; bits 3 to 7 are reserved and make the frame malformed unless zero (12.3, R192). -/
def rightsOfByte (c : Byte) : Option Rights :=
  if c &&& 0xF8#8 = 0#8 then
    some { read := c.getLsbD 0, write := c.getLsbD 1, watch := c.getLsbD 2 }
  else none

/-- The rights byte of a record as sent (12.3). -/
def Rights.byte (r : Rights) : Byte :=
  (if r.read then 1#8 else 0#8) ||| (if r.write then 2#8 else 0#8) ||| (if r.watch then 4#8 else 0#8)

/-- The member targets of a route record: three bytes each, exactly as many bytes as the members need (12.3, R11). -/
def membersOfBytes : Nat → List Byte → Option (List RouteMember)
  | 0, [] => some []
  | m + 1, b :: d :: r :: rest => do
    let ms ← membersOfBytes m rest
    return { branch := b, device := d, base := r } :: ms
  | _, _ => none

/-- The member targets as sent (12.3). -/
def memberBytes (ms : List RouteMember) : List Byte :=
  ms.flatMap (fun m => [m.branch, m.device, m.base])

/-- A route record in a STAGE_ROUTE (12.3, R11): a member count above 4 is malformed. -/
def routeOfBytes : List Byte → Option Route
  | k :: bh :: bl :: lh :: ll :: r :: m :: rest => do
    if 4 < m.toNat then none
    else
      let members ← membersOfBytes m.toNat rest
      let kind ← RouteKind.ofCode k
      let rights ← rightsOfByte r
      return { kind := kind, base := Half.ofBytes bh bl, limit := Half.ofBytes lh ll,
               rights := rights, members := members }
  | _ => none

/-- A route record as sent, every field as stored (12.3, R193). -/
def Route.bytes (r : Route) : List Byte :=
  r.kind.code :: (halfBytes r.base ++ halfBytes r.limit
    ++ [r.rights.byte, Byte.ofCount r.members.length] ++ memberBytes r.members)

/-- Every field of a branch configuration record lies in its range (R74). -/
def BranchConfig.inRange (c : BranchConfig) : Bool :=
  decide (c.speed ≤ 3) && decide (1 ≤ c.hold ∧ c.hold ≤ 255) && decide (c.busyLimit ≤ 15)
    && decide (c.retryDelay ≤ 255) && decide (c.checkLimit ≤ 3)

/-- A branch configuration record in a SET_BRANCH (12.3, R88). -/
def configOfBytes : List Byte → Option BranchConfig
  | [e, sp, h, bl, rd, cl] => do
    let enabled ← yesNoOfCode e
    let c : BranchConfig :=
      { enabled := enabled, speed := sp.toNat, hold := h.toNat, busyLimit := bl.toNat,
        retryDelay := rd.toNat, checkLimit := cl.toNat }
    if c.inRange then some c else none
  | _ => none

/-- A branch configuration record as sent (12.3). -/
def BranchConfig.bytes (c : BranchConfig) : List Byte :=
  [yesNo c.enabled, Byte.ofCount c.speed, Byte.ofCount c.hold, Byte.ofCount c.busyLimit,
    Byte.ofCount c.retryDelay, Byte.ofCount c.checkLimit]

/-- The burst limits allowed (R136). -/
def burstLimits : List Nat := [1, 2, 4, 8]

/-- A priority order names each of the six sources exactly once (R147). -/
def isPriorityOrder (l : List Source) : Bool :=
  l.length == 6 && Source.all.all (fun x => l.contains x)

/-- An arbiter configuration that SET_ARBITER may store (R147). -/
def ArbiterConfig.legal (c : ArbiterConfig) : Bool :=
  burstLimits.contains c.burst && isPriorityOrder c.order

/-- The arbiter configuration in a SET_ARBITER (R147, 12.4). -/
def arbiterOfBytes : List Byte → Option ArbiterConfig
  | m :: b :: y :: rest => do
    let mode ← ArbiterMode.ofCode m
    let policy ← YieldPolicy.ofCode y
    let order ← rest.mapM Source.ofCode
    let c : ArbiterConfig := { mode := mode, burst := b.toNat, yieldPolicy := policy, order := order }
    if c.legal then some c else none
  | _ => none

/-- An arbiter configuration as sent (12.4, 12.5). -/
def ArbiterConfig.bytes (c : ArbiterConfig) : List Byte :=
  [c.mode.code, Byte.ofCount c.burst, c.yieldPolicy.code] ++ c.order.map Source.code

/-- READ: address, length 1..32 (R53). -/
def readOfPayload : List Byte → Option Request
  | [h, l, n] =>
    if 1 ≤ n.toNat ∧ n.toNat ≤ 32 then some (.read (Half.ofBytes h l) n.toNat) else none
  | _ => none

/-- WRITE and WRITE_POSTED: address, length 1..32, exactly that many data bytes (R52, R53). -/
def writeOfPayload (posted : Bool) : List Byte → Option Request
  | h :: l :: n :: data =>
    if 1 ≤ n.toNat ∧ n.toNat ≤ 32 ∧ data.length = n.toNat then
      some (.write posted (Half.ofBytes h l) data)
    else none
  | _ => none

/-- WATCH: address, length 1..4, interval 1..255, limit 1..255, exactly length mask bytes and length match bytes (R52,
R53). -/
def watchOfPayload : List Byte → Option Request
  | h :: l :: n :: interval :: limit :: rest =>
    if 1 ≤ n.toNat ∧ n.toNat ≤ 4 ∧ rest.length = 2 * n.toNat ∧ 1 ≤ interval.toNat ∧ 1 ≤ limit.toNat then
      some (.watch (Half.ofBytes h l) interval.toNat limit.toNat (rest.take n.toNat) (rest.drop n.toNat))
    else none
  | _ => none

/-- COMMIT: expected generation, mode, quiesce timeout, which is examined in QUIESCE mode only (R14). -/
def commitOfPayload : List Byte → Option Request
  | [gh, gl, m, th, tl] => do
    let mode ← CommitMode.ofCode m
    let timeout := Half.ofBytes th tl
    if mode = .quiesce ∧ (timeout.toNat = 0 ∨ 60000 < timeout.toNat) then none
    else return .commit (Half.ofBytes gh gl) mode timeout
  | _ => none

/-- The request a frame carries, or `none` when the frame is malformed (R52, R192). -/
def Frame.request (fr : Frame) : Option Request :=
  match Kind.ofCode fr.kind with
  | none => none
  | some .read => readOfPayload fr.payload
  | some .write => writeOfPayload false fr.payload
  | some .writePosted => writeOfPayload true fr.payload
  | some .watch => watchOfPayload fr.payload
  | some .cancel =>
    match fr.payload with
    | [t] => some (.cancel t)
    | _ => none
  | some .identify => if fr.payload = [] then some .identify else none
  | some .getStatus => if fr.payload = [] then some .getStatus else none
  | some .stageRoute =>
    match fr.payload with
    | sl :: record => do
      let slot ← slotOfCode sl
      let r ← routeOfBytes record
      return .stageRoute slot r
    | [] => none
  | some .readRoute =>
    match fr.payload with
    | [bk, sl] => do
      let bank ← BankSelector.ofCode bk
      let slot ← slotOfCode sl
      return .readRoute bank slot
    | _ => none
  | some .commit => commitOfPayload fr.payload
  | some .discard => if fr.payload = [] then some .discard else none
  | some .setBranch =>
    match fr.payload with
    | b :: record => do
      let branch ← branchOfCode b
      let c ← configOfBytes record
      return .setBranch branch c
    | [] => none
  | some .getBranch =>
    match fr.payload with
    | [b] => do
      let branch ← branchOfCode b
      return .getBranch branch
    | _ => none
  | some .setArbiter => do
    let c ← arbiterOfBytes fr.payload
    return .setArbiter c
  | some .reset =>
    match fr.payload with
    | [sc] => do
      let scope ← ResetScope.ofCode sc
      return .reset scope
    | _ => none

/-! ## Writing a request frame -/

/-- The kind of a request. -/
def Request.kind : Request → Kind
  | .read .. => .read
  | .write posted .. => if posted then .writePosted else .write
  | .watch .. => .watch
  | .cancel _ => .cancel
  | .identify => .identify
  | .getStatus => .getStatus
  | .stageRoute .. => .stageRoute
  | .readRoute .. => .readRoute
  | .commit .. => .commit
  | .discard => .discard
  | .setBranch .. => .setBranch
  | .getBranch _ => .getBranch
  | .setArbiter _ => .setArbiter
  | .reset _ => .reset

/-- The payload of a request (12.4). -/
def Request.payload : Request → List Byte
  | .read a n => halfBytes a ++ [Byte.ofCount n]
  | .write _ a d => halfBytes a ++ [Byte.ofCount d.length] ++ d
  | .watch a i l mask pattern =>
    halfBytes a ++ [Byte.ofCount mask.length, Byte.ofCount i, Byte.ofCount l] ++ mask ++ pattern
  | .cancel t => [t]
  | .identify | .getStatus | .discard => []
  | .stageRoute sl r => Byte.ofCount sl.val :: r.bytes
  | .readRoute bk sl => [bk.code, Byte.ofCount sl.val]
  | .commit g m t => halfBytes g ++ [m.code] ++ halfBytes t
  | .setBranch b c => Byte.ofCount b.val :: c.bytes
  | .getBranch b => [Byte.ofCount b.val]
  | .setArbiter c => c.bytes
  | .reset sc => [sc.code]

/-- The request frame that carries a request under a tag (12.4). -/
def Request.frame (r : Request) (tag : Byte) : Frame :=
  { kind := r.kind.code, tag := tag, payload := r.payload }

/-- The request lies within the ranges of R53. -/
def Request.wellFormed : Request → Bool
  | .read _ n => decide (1 ≤ n ∧ n ≤ 32)
  | .write _ _ d => decide (1 ≤ d.length ∧ d.length ≤ 32)
  | .watch _ i l mask pattern =>
    decide (1 ≤ mask.length ∧ mask.length ≤ 4 ∧ pattern.length = mask.length)
      && decide (1 ≤ i ∧ i ≤ 255) && decide (1 ≤ l ∧ l ≤ 255)
  | .stageRoute _ r => decide (r.members.length ≤ 4)
  | .commit _ m t => decide (m = .immediate) || decide (1 ≤ t.toNat ∧ t.toNat ≤ 60000)
  | .setBranch _ c => c.inRange
  | .setArbiter c => c.legal
  | .cancel _ | .identify | .getStatus | .readRoute .. | .discard | .getBranch _ | .reset _ => true

end Sys2Proof.Machine
end

