-- ==== Sys2Proof/Machine/Crc.lean ====
section
/-! DEFINITION. The two checks: the CRC-16 of a trunk frame (R167) and the CRC-8 check cell of a branch exchange (R72). -/

namespace Sys2Proof.Machine

/-- One bit of the CRC-16: the bit is combined into the high end and the polynomial 0x1021 is applied (R167). -/
def crc16Bit (r : BitVec 16) (b : Bool) : BitVec 16 :=
  if r.msb != b then (r <<< 1) ^^^ 0x1021#16 else r <<< 1

/-- One byte of the CRC-16, most significant bit first (R167). -/
def crc16Byte (r : BitVec 16) (x : Byte) : BitVec 16 :=
  [7, 6, 5, 4, 3, 2, 1, 0].foldl (fun r i => crc16Bit r (x.getLsbD i)) r

/-- The CRC-16 over the length byte, the kind, the tag and the payload: the register starts at 0xFFFF (R167). -/
def crc16 (bytes : List Byte) : BitVec 16 := bytes.foldl crc16Byte 0xFFFF#16

/-- One bit of the CRC-8, polynomial x^8+x^2+x+1 (R72). -/
def crc8Bit (r : BitVec 8) (b : Bool) : BitVec 8 :=
  if r.msb != b then (r <<< 1) ^^^ 0x07#8 else r <<< 1

/-- One cell of the CRC-8, most significant bit first (R72). -/
def crc8Byte (r : BitVec 8) (x : Byte) : BitVec 8 :=
  [7, 6, 5, 4, 3, 2, 1, 0].foldl (fun r i => crc8Bit r (x.getLsbD i)) r

/-- The check cell over the header, index, count and data cells: the running value starts at 0 (R72). -/
def crc8 (cells : List Byte) : Byte := cells.foldl crc8Byte 0#8

end Sys2Proof.Machine
end

