-- ==== Sys2Proof/Machine/State.lean ====
section
/-! DEFINITION. The state of the FH416: every block of the manual with the state it owns, the pins, the queue of commands
that are waiting, and one counter of the model's own (`freeCount`) that the free values are applied to. The reset value of
each block stands beside it (R190). -/

namespace Sys2Proof.Machine

/-- Nothing faults: the manual gives the part no condition that stops it but the two of R189, which are state
(`State.supply`) and which start-up ends. -/
inductive Fault where
  deriving DecidableEq, Repr

/-- Why a command has no outcome. -/
inductive Refusal where
  /-- Raised by `exec` alone, for a command that has no meaning yet. Safe: the model stops where the part goes on. -/
  | notModelled (mnemonic : String)
  deriving DecidableEq, Repr

/-! ## Reset values -/

/-- A slot after power-on (R5). -/
def Route.reset : Route :=
  { kind := .unused, base := 0#16, limit := 0#16, rights := ⟨false, false, false⟩, members := [] }

/-- A bank after power-on (R5). -/
def Bank.reset : Bank := Vector.replicate 32 Route.reset

/-- The route table unit after power-on (R5). -/
def RouteUnit.reset : RouteUnit :=
  { active := Bank.reset, staging := Bank.reset, generation := 0#16, pendingCommit := none }

/-- A FREE entry: every field but the state is discarded (R26, R42). -/
def Entry.free : Entry :=
  { state := .free, cls := .control, kind := 0#8, tag := 0#8, posted := false, generation := 0#16,
    address := none, length := none, group := false, members := [], data := [], watch := none,
    cancelRequested := false, status := none, source := .ctl, reply := .nothing, scope := none }

/-- The outstanding table after a reset (R43). -/
def OutstandingTable.reset : OutstandingTable :=
  { entries := Vector.replicate 16 Entry.free, dataInUse := 0, controlInUse := 0 }

/-- The branch configuration record after power-on (R74). -/
def BranchConfig.reset : BranchConfig :=
  { enabled := false, speed := 1, hold := 100, busyLimit := 3, retryDelay := 2, checkLimit := 1 }

/-- An engine after power-on (R93). -/
def Engine.reset : Engine :=
  { state := .disabled, disablePending := false, config := BranchConfig.reset, queue := [],
    inService := none, busyUsed := 0, checkUsed := 0, retryTimer := none, recoveryTimer := none,
    lastFault := .none, copy := none, wire := .released }

/-- The arbiter configuration after power-on (R151). -/
def ArbiterConfig.reset : ArbiterConfig :=
  { mode := .linear, burst := 1, yieldPolicy := .atFrame,
    order := [.ntc, .ctl, .branch 0, .branch 1, .branch 2, .branch 3] }

/-- The arbiter after power-on (R151). -/
def Arbiter.reset : Arbiter :=
  { config := ArbiterConfig.reset, decisionMode := .linear, roundSet := [], grant := none,
    branchQueues := Vector.replicate 4 [], ctlQueue := [] }

/-- The notice unit after power-on, before READY is handed to it (R162). -/
def NoticeUnit.reset : NoticeUnit := { queue := [], lost := false, sequence := 0#8 }

/-- The receiver after power-on with TRXD at marking and the rate code just sampled (R180). -/
def Receiver.reset (rate : RateCode) : Receiver :=
  { state := .hunt, building := none, gap := none, waiting := false, spacing := none,
    inCharacter := false, cut := false, breakEnding := false, inbound := [], advertised := 8, lastTag := none,
    rate := rate }

/-- Neither condition is present and start-up is over (R189, R190). -/
def Supply.running : Supply :=
  { powerCondition := false, pinCondition := false, powerSinceStart := false }

/-- The whole part. -/
structure State where
  /-- The power-on and RSTn conditions (R189). -/
  supply : Supply
  /-- The level of TRXD (11.6). -/
  trxd : Level
  /-- The level of RATE1 and RATE0 when they were last sampled (R191). -/
  straps : RateCode
  /-- The trunk receiver (R168). -/
  rx : Receiver
  /-- The halt flag of the admission unit (R48). -/
  halt : Bool
  /-- The route table unit (R3). -/
  routes : RouteUnit
  /-- The outstanding table (R24). -/
  table : OutstandingTable
  /-- The four branch engines (R75). -/
  engines : Vector Engine 4
  /-- The watch timer list, earliest expiry at the head (R102). -/
  timers : List WatchTimer
  /-- The trunk arbiter (R136). -/
  arbiter : Arbiter
  /-- The notice unit (R152). -/
  notices : NoticeUnit
  /-- The frame on TTXD, absent while TTXD rests at marking (R179). -/
  tx : Option Sending
  /-- The model's own: how many free values have been used. -/
  freeCount : Nat
  /-- The commands that are waiting, first in first out. -/
  pending : List Instr
  deriving DecidableEq, Repr

/-- Right after start-up from power-on (R190): every block at its power-on values and READY queued with cause POWER. TRXD
rests at marking and the strap pins read 00 (DESIGN CHOICE: the manual leaves both pins to the board). -/
def State.reset : State :=
  { supply := Supply.running
    trxd := .marking
    straps := 0#2
    rx := Receiver.reset 0#2
    halt := false
    routes := RouteUnit.reset
    table := OutstandingTable.reset
    engines := Vector.replicate 4 Engine.reset
    timers := []
    arbiter := Arbiter.reset
    notices := { NoticeUnit.reset with queue := [.ready .power 0#16] }
    tx := none
    freeCount := 0
    pending := [] }

end Sys2Proof.Machine
end

