-- ==== Sys2Proof/Machine/Timing.lean ====
section
/-! DEFINITION. The durations of the manual: trunk character times (R164), branch bit periods (R65), the lengths of
exchanges and recovery sequences (R73), holds (R66). Where a duration is held by a timer of the state it is in the
model's time units (Config.unitsPerMs). -/

namespace Sys2Proof.Machine

/-- A trunk bit period in time units: the reciprocal of 115200, 230400, 460800 or 921600 bit/s (R164). -/
def bitUnits (rate : RateCode) : Nat := 10000 / 2 ^ rate.toNat

/-- A character time: 10 bit periods (R164). -/
def characterUnits (rate : RateCode) : Nat := 10 * bitUnits rate

/-- The time the gap timer starts with, 16 character times (R171). -/
def gapUnits (rate : RateCode) : Nat := 16 * characterUnits rate

/-- What is left of the gap timer at the end of the character at whose start it restarted: the stop bit is sampled 9.5 bit
periods after the fall (R165, R171). -/
def gapUnitsAtCharacterEnd (rate : RateCode) : Nat := gapUnits rate - 19 * bitUnits rate / 2

/-- The time of spacing that makes a break, two character times (R177). -/
def breakUnits (rate : RateCode) : Nat := 2 * characterUnits rate

/-- The time a frame takes on the trunk: L + 4 characters (R166). -/
def frameUnits (rate : RateCode) (lengthByte : Nat) : Nat := (lengthByte + 4) * characterUnits rate

/-- The bit period of a speed class in microseconds (R65). -/
def branchBitUs (speed : Nat) : Nat := 16 / 2 ^ speed

/-- The bit periods of a READ of length n that runs to its closing mark, holds apart: opening mark, n + 4 cells, presence
slot, turnaround, closing mark (R73). -/
def readBitPeriods (n : Nat) : Nat := 2 + 8 * (n + 4) + 1 + 1 + 2

/-- The bit periods of a WRITE of length n that runs to its closing mark, holds apart: opening mark, n + 5 cells, presence
slot, closing mark (R73). -/
def writeBitPeriods (n : Nat) : Nat := 2 + 8 * (n + 5) + 1 + 2

/-- The bit periods of a NO_DEVICE exchange, holds apart (R68). -/
def noDeviceBitPeriods : Nat := 2 + 8 + 1 + 2

/-- The bit periods of a recovery sequence: 16 pulses and a closing mark (R73, R82). -/
def recoveryBitPeriods : Nat := 16 + 2

/-- The longest hold allowed, in microseconds (R66). -/
def BranchConfig.holdUs (c : BranchConfig) : Nat := 100 * c.hold

end Sys2Proof.Machine
end

