-- ==== Sys2Proof/Machine/Flags.lean ====
section
/-! DEFINITION. The conditions that rules test: the part is stopped (R189), an entry is in use, a tag is in use (R55), a
branch is up (R57), a head can be taken (R45), the CREDIT trigger (R176), a source is ready (R135), a timer is due. -/

namespace Sys2Proof.Machine

/-- An entry record. -/
def State.entry (s : State) (i : EntryId) : Entry := Table.get s.table.entries i

/-- A branch engine. -/
def State.engine (s : State) (b : BranchId) : Engine := Table.get s.engines b

/-- The power-on or the RSTn condition is present: the part is stopped (R189). -/
def State.stopped (s : State) : Bool := s.supply.powerCondition || s.supply.pinCondition

/-- In use: any state other than FREE (Conventions). -/
def Entry.inUse (e : Entry) : Bool := e.state != .free

/-- The member is PENDING or IN_SERVICE (R34). -/
def Member.unfinished (m : Member) : Bool := m.state == .pending || m.state == .inService

/-- Some member is still PENDING or IN_SERVICE (R34). -/
def Entry.unfinished (e : Entry) : Bool := e.members.any Member.unfinished

/-- The tag belongs to an entry in use (R55). -/
def State.tagInUse (s : State) (tag : Byte) : Bool :=
  (List.finRange 16).any (fun i => (s.entry i).inUse && (s.entry i).tag == tag)

/-- The lowest-indexed FREE entry (R32). -/
def State.lowestFree (s : State) : Option EntryId :=
  (List.finRange 16).find? (fun i => !(s.entry i).inUse)

/-- The entry in use that holds a tag, the entry `own` left out (R121). -/
def State.findTag (s : State) (own : EntryId) (tag : Byte) : Option EntryId :=
  (List.finRange 16).find? (fun i => i != own && (s.entry i).inUse && (s.entry i).tag == tag)

/-- The free count of the inbound queue: 8 minus the frames in it (R173). -/
def Receiver.freeSlots (rx : Receiver) : Nat := Config.inboundSlots - rx.inbound.length

/-- The trigger of CREDIT, tested after a rise of the free count (R176). -/
def Receiver.creditDue (rx : Receiver) : Bool :=
  decide (rx.advertised + 4 ≤ rx.freeSlots) || (rx.advertised == 0 && decide (1 ≤ rx.freeSlots))

/-- The branch is up for admission (R57). -/
def Engine.up (g : Engine) : Bool :=
  !g.disablePending &&
    (match g.state with
     | .idle | .exchange | .retryWait | .recovery => true
     | .disabled | .faulted => false)

/-- Admission can take a head of this kind code (R45). -/
def State.admissible (s : State) (kind : Byte) : Bool :=
  !s.stopped && !s.halt && s.lowestFree.isSome &&
    (match classOf kind with
     | .control => true
     | .data => decide (s.table.dataInUse < Config.dataEntries) && s.routes.pendingCommit.isNone)

/-- The head of the inbound queue exists and can be taken (R45). -/
def State.headReady (s : State) : Bool :=
  match s.rx.inbound with
  | [] => false
  | fr :: _ => s.admissible fr.kind

/-- An engine takes the head of its queue: it is IDLE, its queue is not empty, and no closing mark of a FULL reset is still
on its lines (R77, R93). -/
def State.canTake (s : State) (b : BranchId) : Bool :=
  !s.stopped && (s.engine b).state == .idle && !(s.engine b).queue.isEmpty
    && (s.engine b).wire == .released

/-- A source queue of the arbiter; the NTC source is the notice queue (R135). -/
def State.sourceReady (s : State) : Source → Bool
  | .branch b => !(Table.get s.arbiter.branchQueues b).isEmpty
  | .ctl => !s.arbiter.ctlQueue.isEmpty
  | .ntc => !s.notices.queue.isEmpty

/-- Some source is ready while no frame is on TTXD (R137). -/
def State.grantDue (s : State) : Bool :=
  !s.stopped && s.tx.isNone && Source.all.any s.sourceReady

/-- The pending commit can be performed: the DATA count is 0 (R18). -/
def State.drainDue (s : State) : Bool :=
  !s.stopped && s.routes.pendingCommit.isSome && s.table.dataInUse == 0

/-- A happening that the manual lets no time pass before: the taking of a head (R45), of an item (R77), a decision on an
idle TTXD (R137), a drain (R18). -/
def State.immediate (s : State) : Bool :=
  s.headReady || (List.finRange 4).any s.canTake || s.grantDue || s.drainDue

/-- The timers that run, with what is left of each: gap, spacing (R168), the pending commit (R3), retry and recovery timers
(R75), watch timers (R102). -/
def State.runningTimers (s : State) : List Nat :=
  s.rx.gap.toList ++ s.rx.spacing.toList ++ (s.routes.pendingCommit.map (·.remaining)).toList
    ++ (List.finRange 4).flatMap (fun b => (s.engine b).retryTimer.toList ++ (s.engine b).recoveryTimer.toList)
    ++ s.timers.map (·.remaining)

/-- Some running timer is in its last time unit: its running out comes next. -/
def State.timerDue (s : State) : Bool := s.runningTimers.any (fun t => decide (t ≤ 1))

/-- A value matches when the bits selected by the mask are equal to the same bits of the match, byte by byte (R98). -/
def WatchRecord.accepts (w : WatchRecord) (value : List Byte) : Bool :=
  ((w.mask.zip w.pattern).zip value).all (fun x => x.2 &&& x.1.1 == x.1.2 &&& x.1.1)

end Sys2Proof.Machine
end

