-- ==== Sys2Proof/Machine/Ops.lean ====
section
/-! DEFINITION. The operations that several commands share: replacing an entry or an engine, handing a notice (R154),
allocating, completing and freeing an entry (R32, R38, R42), finishing a member (R28, R34), flushing a branch (R86, R89),
the end of an item (R78), a fault (R86), the watch timer list (R102, R103). -/

namespace Sys2Proof.Machine

/-! ## Replacing one record -/

/-- The state with one entry record replaced. -/
def State.setEntry (s : State) (i : EntryId) (e : Entry) : State :=
  { s with table := { s.table with entries := Table.set s.table.entries i e } }

/-- The state with one engine replaced. -/
def State.setEngine (s : State) (b : BranchId) (g : Engine) : State :=
  { s with engines := Table.set s.engines b g }

/-- The state with the receiver replaced. -/
def State.setRx (s : State) (rx : Receiver) : State := { s with rx := rx }

/-- The state with the route table unit replaced. -/
def State.setRoutes (s : State) (r : RouteUnit) : State := { s with routes := r }

/-- The state with the arbiter replaced. -/
def State.setArbiter (s : State) (a : Arbiter) : State := { s with arbiter := a }

/-- The state with the notice unit replaced. -/
def State.setNotices (s : State) (n : NoticeUnit) : State := { s with notices := n }

/-- The state with the watch timer list replaced. -/
def State.setTimers (s : State) (l : List WatchTimer) : State := { s with timers := l }

/-! ## Handing a notice -/

/-- The queued notice after a new one of its type is merged into it; `none` when the two do not coalesce (R154, R155). -/
def Notice.merge : Notice → Notice → Option Notice
  | .credit, .credit => some .credit
  | .overrun first count, .overrun _ _ => some (.overrun first (min 255 (count + 1)))
  | .linkError first count, .linkError _ _ => some (.linkError first (min 255 (count + 1)))
  | _, _ => none

/-- The queue with the new notice merged into the queued notice of its type, in its place; `none` when there is none. -/
def coalesce (new : Notice) : List Notice → Option (List Notice)
  | [] => none
  | old :: rest =>
    match old.merge new with
    | some merged => some (merged :: rest)
    | none => (coalesce new rest).map (old :: ·)

/-- A notice handed to the notice unit: coalesced, appended, or dropped with LOST set (R154). -/
def NoticeUnit.hand (n : NoticeUnit) (new : Notice) : NoticeUnit :=
  match coalesce new n.queue with
  | some q => { n with queue := q }
  | none =>
    if n.queue.length < Config.noticeSlots then { n with queue := n.queue ++ [new] }
    else { n with lost := true }

/-- A producer hands a notice (R159). -/
def State.hand (s : State) (new : Notice) : State := s.setNotices (s.notices.hand new)

/-! ## Entries -/

/-- An entry joins its source queue at the tail (R31). The NTC source is the notice unit's: no entry joins it. -/
def Arbiter.join (a : Arbiter) (src : Source) (i : EntryId) : Arbiter :=
  match src with
  | .branch b =>
    { a with branchQueues := Table.set a.branchQueues b (Table.get a.branchQueues b ++ [i]) }
  | .ctl => { a with ctlQueue := a.ctlQueue ++ [i] }
  | .ntc => a

/-- An entry of a class leaves FREE: the count of its class rises by 1 (R24). -/
def OutstandingTable.raise (t : OutstandingTable) : RequestClass → OutstandingTable
  | .data => { t with dataInUse := t.dataInUse + 1 }
  | .control => { t with controlInUse := t.controlInUse + 1 }

/-- An entry of a class returns to FREE: the count of its class falls by 1 (R24). -/
def OutstandingTable.lower (t : OutstandingTable) : RequestClass → OutstandingTable
  | .data => { t with dataInUse := t.dataInUse - 1 }
  | .control => { t with controlInUse := t.controlInUse - 1 }

/-- An entry in use returns to FREE: its fields are discarded, its tag released and the count of its class lowered (R42). -/
def State.freeEntry (s : State) (i : EntryId) : State :=
  if (s.entry i).inUse then
    { s with
      table :=
        { s.table with entries := Table.set s.table.entries i Entry.free }.lower (s.entry i).cls }
  else s

/-- An entry goes COMPLETE with a status and what its response will carry, and joins its source (R31, R38). -/
def State.completeEntry (s : State) (i : EntryId) (status : Status) (reply : Reply) : State :=
  let e := s.entry i
  (s.setEntry i { e with state := .complete, status := some status, reply := reply }).setArbiter
    (s.arbiter.join e.source i)

/-- The member-outcome list in route order (R116). -/
def Entry.outcomes (e : Entry) : List (BranchId × Status) :=
  e.members.map (fun m => (m.branch, m.outcome.getD .ok))

/-- The combined status of member outcomes: the outcome they all have, or PARTIAL (R115, tests 2 to 4). -/
def combinedStatus : List Status → Status
  | [] => .ok
  | x :: rest => if rest.all (· == x) then x else .partialResult

/-- The status decided when the entry completes (R38): CANCELLED when a CANCEL marked it or dropped a member of it (R37,
R115), the combined status of a group, the outcome of the one member otherwise. -/
def Entry.decidedStatus (e : Entry) : Status :=
  if e.cancelRequested || e.members.any (fun m => m.state == .dropped) then .cancelled
  else combinedStatus (e.outcomes.map (·.2))

/-- What the response of a data entry carries once its status is decided (R38, R149): the data of a READ with OK alone, the
outcome list of a group, the last value of a WATCH (R106). -/
def Entry.dataReply (e : Entry) (status : Status) : Reply :=
  let a := e.address.getD 0#16
  let n := e.length.getD 0
  match Kind.ofCode e.kind with
  | some .read => .read a n (if status = .ok then some e.data else none)
  | some .write => .write a n (if e.group then e.outcomes else [])
  | some .watch => .watch a n (e.watch.bind (·.last))
  | _ => .nothing

/-- The outcome list that POSTED_FAILED carries: a group's, and none otherwise (R161). -/
def Entry.postedOutcomes (e : Entry) : List (BranchId × Status) := if e.group then e.outcomes else []

/-- A posted write ends: it goes FREE, and a status other than OK and CANCELLED queues POSTED_FAILED (R40, R118). -/
def State.endPosted (s : State) (i : EntryId) (status : Status) : State :=
  let e := s.entry i
  let s := s.freeEntry i
  if status = .ok ∨ status = .cancelled then s
  else s.hand (.postedFailed e.tag status e.postedOutcomes)

/-- A data entry completes: COMPLETE in its source, or FREE for a posted write (R34, R40). -/
def State.finishEntry (s : State) (i : EntryId) : State :=
  let e := s.entry i
  let status := e.decidedStatus
  if e.posted then s.endPosted i status else s.completeEntry i status (e.dataReply status)

/-- The completion test: an entry at work with no member PENDING or IN_SERVICE completes (R34, R35). -/
def State.settle (s : State) (i : EntryId) : State :=
  let e := s.entry i
  match e.state with
  | .queued | .active | .waiting => if e.unfinished then s else s.finishEntry i
  | .free | .held | .complete | .sending => s

/-! ## Members -/

/-- An entry with one member's state and outcome replaced. -/
def Entry.setMember (e : Entry) (k : Nat) (st : MemberState) (outcome : Option Status) : Entry :=
  { e with members := e.members.modify k (fun m => { m with state := st, outcome := outcome }) }

/-- The state with one member's state and outcome replaced. -/
def State.setMember (s : State) (it : Item) (st : MemberState) (outcome : Option Status) : State :=
  s.setEntry it.entry ((s.entry it.entry).setMember it.member st outcome)

/-- The member an item refers to. -/
def State.member (s : State) (it : Item) : Option Member := (s.entry it.entry).members[it.member]?

/-- A member goes FINISHED with its outcome, and the completion test follows (R28, R34). -/
def State.finishMember (s : State) (it : Item) (outcome : Status) : State :=
  (s.setMember it .finished (some outcome)).settle it.entry

/-- A member goes DROPPED; the completion test is the caller's (R28, R124). -/
def State.dropMember (s : State) (it : Item) : State := s.setMember it .dropped (some .dropped)

/-- A member enters service, and a QUEUED entry goes ACTIVE (R33, R77). -/
def State.serveMember (s : State) (it : Item) : State :=
  let e := (s.entry it.entry).setMember it.member .inService none
  s.setEntry it.entry { e with state := if e.state = .queued then .active else e.state }

/-! ## Watch timer list -/

/-- A timer inserted at its place by expiry; among timers of equal expiry `tie` says where it stands (R102). -/
def insertTimer (tie : Nat → Bool) (t : WatchTimer) : Nat → List WatchTimer → List WatchTimer
  | _, [] => [t]
  | k, u :: rest =>
    if t.remaining < u.remaining then t :: u :: rest
    else if t.remaining = u.remaining then
      if tie k then t :: u :: rest else u :: insertTimer tie t (k + 1) rest
    else u :: insertTimer tie t k rest

/-- The timer of a watch is placed with time remaining equal to its interval (R103). -/
def State.placeTimer (s : State) (i : EntryId) (intervalMs : Nat) : State :=
  { s with
    timers := insertTimer (Config.timerTie s.freeCount)
      { entry := i, remaining := intervalMs * Config.unitsPerMs } 0 s.timers
    freeCount := s.freeCount + 1 }

/-- The timer of an entry is removed; the others keep their order (R105). -/
def State.removeTimer (s : State) (i : EntryId) : State :=
  s.setTimers (s.timers.filter (fun t => t.entry != i))

/-- The timer belongs to a WATCH whose member lies on the branch. -/
def State.timerOn (s : State) (b : BranchId) (t : WatchTimer) : Bool :=
  match s.member { entry := t.entry, member := 0 } with
  | some m => m.branch == b
  | none => false

/-- A watch record after a read that gave a value: the value is stored and reads remaining is lowered (R98). -/
def WatchRecord.after (w : WatchRecord) (value : List Byte) : WatchRecord :=
  { w with last := some value, remaining := w.remaining - 1 }

/-- The member of a WATCH goes PENDING, its ACTIVE entry goes WAITING, and its timer is placed (R99, R103). -/
def State.waitAgain (s : State) (it : Item) (intervalMs : Nat) : State :=
  let e := (s.entry it.entry).setMember it.member .pending none
  (s.setEntry it.entry { e with state := if e.state = .active then .waiting else e.state }).placeTimer it.entry
    intervalMs

/-- The outcome with which the member of a WATCH finishes after a good read; none when the watch waits again (R99). With cancel
requested it is OK, with or without a match (R37, R81, R125). DEDUCED, log entry 35: so it is too where no reads remain, to which row 2 of R99 gives
LIMIT; the text below that table has R37 decide the entry's status there, and the member follows R37 too. -/
def WatchRecord.outcome (w : WatchRecord) (value : List Byte) (cancelled : Bool) : Option Status :=
  if w.accepts value || cancelled then some .ok
  else if (w.after value).remaining = 0 then some .limit
  else none

/-- The end of a watch read that gave a value: the record takes it, and the value is compared (R98); the member finishes or
the entry goes WAITING (R99). -/
def State.endWatchRead (s : State) (it : Item) (value : List Byte) : State :=
  match (s.entry it.entry).watch with
  | none => s.finishMember it .ok
  | some w =>
    let s := s.setEntry it.entry { s.entry it.entry with watch := some (w.after value) }
    match w.outcome value (s.entry it.entry).cancelRequested with
    | some outcome => s.finishMember it outcome
    | none => s.waitAgain it w.interval

/-! ## Branch queues, the end of an item, faults -/

/-- An item joins the tail of a branch queue (R59, R104). -/
def State.appendItem (s : State) (b : BranchId) (it : Item) : State :=
  s.setEngine b { s.engine b with queue := (s.engine b).queue ++ [it] }

/-- Every queued item and then every waiting watch of a branch ends with one outcome: the items from head to tail, the
watches in list order (R86 steps 3 and 4, R89 steps 3 and 4). -/
def State.flushBranch (s : State) (b : BranchId) (outcome : Status) : State :=
  let items := (s.engine b).queue
  let ended := s.timers.filter (s.timerOn b)
  let s := (s.setEngine b { s.engine b with queue := [] }).setTimers (s.timers.filter (fun t => !s.timerOn b t))
  let s := items.foldl (fun s it => s.finishMember it outcome) s
  ended.foldl (fun s t => s.finishMember { entry := t.entry, member := 0 } outcome) s

/-- A disable is carried out: the branch is flushed with BRANCH_DOWN and the engine goes DISABLED with its flag clear, its
timers stopped and its lines released (R89, R90). A closing mark of a FULL reset still on the lines goes on (R93). -/
def State.carryOutDisable (s : State) (b : BranchId) : State :=
  let s := s.flushBranch b .branchDown
  let g := s.engine b
  s.setEngine b
    { g with state := .disabled, disablePending := false, retryTimer := none, recoveryTimer := none,
             copy := none, wire := if g.wire = .closingMark then .closingMark else .released }

/-- The in-service item becomes absent: the engine goes IDLE, or ends a pending disable (R78). -/
def State.endItem (s : State) (b : BranchId) : State :=
  let g := s.engine b
  let s := s.setEngine b { g with state := .idle, inService := none, copy := none, wire := .released }
  if g.disablePending then s.carryOutDisable b else s

/-- The item in service at an engine, if there is one, leaves service and its member finishes with an outcome. -/
def State.dismiss (s : State) (b : BranchId) (outcome : Status) : State :=
  match (s.engine b).inService with
  | none => s
  | some it => (s.setEngine b { s.engine b with inService := none }).finishMember it outcome

/-- An engine as a failed recovery leaves it: FAULTED with its recovery timer started, or, where a disable was pending and is
carried out at once, DISABLED (R86). -/
def Engine.afterFault (g : Engine) : Engine :=
  let k := { g with retryTimer := none, recoveryTimer := none, copy := none, wire := .released }
  if g.disablePending then { k with state := .disabled, disablePending := false }
  else { k with state := .faulted, recoveryTimer := some Config.recoveryUnits }

/-- The steps of a failed recovery (R86): the reason, the item in service, the flush, BRANCH_STATE, the recovery timer; a
pending disable is then carried out at once. -/
def State.fault (s : State) (b : BranchId) (reason : BranchReason) : State :=
  let s := s.setEngine b { s.engine b with lastFault := reason }
  let s := ((s.dismiss b .branchFault).flushBranch b .branchFault).hand (.branchState b .faulted reason)
  s.setEngine b (s.engine b).afterFault

end Sys2Proof.Machine
end

