-- ==== Sys2Proof/Machine/Routes.lean ====
section
/-! DEFINITION. The route table unit: lookup (R6, R7), validation (R9, R10), performing a commit (R15). -/

namespace Sys2Proof.Machine

/-! ## Lookup -/

/-- The window of the slot holds the address (R6). -/
def Route.holds (r : Route) (address : Nat) : Bool :=
  decide (r.base.toNat ≤ address ∧ address ≤ r.limit.toNat)

/-- The slot of a bank whose kind is not UNUSED and whose window holds the address (R6 step 1). -/
def Bank.find (bank : Bank) (address : Half) : Option Route :=
  ((List.finRange 32).map (Table.get bank)).find?
    (fun r => r.kind != .unused && r.holds address.toNat)

/-- The slot's right for a request kind is on (R2); a GROUP slot is reached by WRITE and WRITE_POSTED alone (R56, R108). -/
def Route.allows (r : Route) : Kind → Bool
  | .read => r.rights.read && r.kind != .group
  | .write | .writePosted => r.rights.write
  | .watch => r.rights.watch && r.kind != .group
  | _ => false

/-- The lookup of a data request: the refusal, or the slot that resolves it (R6). -/
def Bank.lookup (bank : Bank) (kind : Kind) (address : Half) (length : Nat) : Except Status Route :=
  match bank.find address with
  | none => .error .noRoute
  | some r =>
    if r.kind = .deny then .error .accessDenied
    else if !r.holds (address.toNat + length - 1) then .error .range
    else if !r.allows kind then .error .accessDenied
    else .ok r

/-- The target that one member of the slot gives a request at an address, PENDING for now (R7, R56). In a valid bank the
stored branch lies in 0..3, and the register does not pass 255. -/
def Route.target (r : Route) (address : Half) (m : RouteMember) : Member :=
  { branch := Fin.ofNat 4 m.branch.toNat
    device := m.device
    register := m.base + BitVec.ofNat 8 (address.toNat - r.base.toNat)
    state := .pending
    outcome := none }

/-- The targets of a request in route order (R7). -/
def Route.targets (r : Route) (address : Half) : List Member := r.members.map (r.target address)

/-! ## Validation -/

/-- Two windows share at least one address (R9). -/
def Route.overlaps (r q : Route) : Bool :=
  decide (r.base.toNat ≤ q.limit.toNat ∧ q.base.toNat ≤ r.limit.toNat)

/-- The lowest-indexed slot below `i` that is not UNUSED and whose window meets the window of slot `i` (R9). -/
def Bank.overlapping (bank : Bank) (i : SlotId) : Option SlotId :=
  (List.finRange 32).find? (fun j =>
    decide (j < i) && (Table.get bank j).kind != .unused && (Table.get bank j).overlaps (Table.get bank i))

/-- The member count is one the kind allows (R9). -/
def Route.countFits (r : Route) : Bool :=
  match r.kind with
  | .direct => r.members.length == 1
  | .group => decide (1 ≤ r.members.length ∧ r.members.length ≤ 4)
  | .deny | .unused => r.members.isEmpty

/-- The device lies in 1..30 and the branch in 0..3 (R9). -/
def RouteMember.valid (m : RouteMember) : Bool :=
  decide (1 ≤ m.device.toNat ∧ m.device.toNat ≤ 30) && decide (m.branch.toNat ≤ 3)

/-- The members of the slot pass MEMBER: their count, each device and branch, and distinct branches in a GROUP (R9). -/
def Route.membersValid (r : Route) : Bool :=
  r.countFits && r.members.all RouteMember.valid
    && (r.kind != .group || decide (r.members.map (·.branch)).Nodup)

/-- No member's last register passes 255 (R9). -/
def Route.registersValid (r : Route) : Bool :=
  r.members.all (fun m => decide (m.base.toNat + (r.limit.toNat - r.base.toNat) ≤ 255))

/-- A GROUP slot has READ and WATCH off, a DENY slot every right (R9). -/
def Route.rightsValid (r : Route) : Bool :=
  match r.kind with
  | .group => !r.rights.read && !r.rights.watch
  | .deny => !r.rights.read && !r.rights.write && !r.rights.watch
  | .direct | .unused => true

/-- The first condition that a slot fails, in the order of R9; an UNUSED slot is tested for MEMBER alone (R10). -/
def Bank.slotFailure (bank : Bank) (i : SlotId) : Option ValidityFailure :=
  let r := Table.get bank i
  if r.kind = .unused then
    if r.members.isEmpty then none else some ⟨i, .member, none⟩
  else if r.limit.toNat < r.base.toNat then some ⟨i, .order, none⟩
  else if 255 < r.limit.toNat - r.base.toNat then some ⟨i, .size, none⟩
  else
    match bank.overlapping i with
    | some j => some ⟨i, .overlap, some j⟩
    | none =>
      if !r.membersValid then some ⟨i, .member, none⟩
      else if !r.registersValid then some ⟨i, .register, none⟩
      else if !r.rightsValid then some ⟨i, .rights, none⟩
      else none

/-- The validation of a bank, slot by slot from slot 0: the first failure, or none (R9). -/
def Bank.validate (bank : Bank) : Option ValidityFailure :=
  (List.finRange 32).findSome? bank.slotFailure

/-- The bank meets every validity condition (1.4). -/
def Bank.valid (bank : Bank) : Bool := bank.validate.isNone

/-! ## Commit -/

/-- Performing a commit: the staging bank is copied into the active bank and the generation rises by 1 modulo 65536 (R4,
R15). -/
def RouteUnit.perform (r : RouteUnit) : RouteUnit :=
  { r with active := r.staging, generation := r.generation + 1#16 }

/-- The time remaining of the pending commit as GET_STATUS reports it, rounded up to a whole millisecond (R3). -/
def PendingCommit.remainingMs (p : PendingCommit) : Nat :=
  (p.remaining + (Config.unitsPerMs - 1)) / Config.unitsPerMs

end Sys2Proof.Machine
end

