-- ==== Sys2Proof/Machine/Admission.lean ====
section
/-! DEFINITION. The admission unit (Section 3): taking the head (R44), the order of the checks (R51), refusals (R60, R61),
the placing of data requests (R59, R110), the execution of control requests by their owners (R62), cancellation (Section
7), and the commands that take each kind of frame. -/

namespace Sys2Proof.Machine

/-! ## Allocation, refusal -/

/-- Allocation takes a FREE entry for a frame: class, kind, tag, posted flag and generation are set, and the count of the
class rises (R24, R26, R50). The state and source stand as those of an entry completed at admission until the checks set
them (log entry 30). DESIGN CHOICE, log entry 36: the data field is empty until a lookup, and stays so in the entry of a
malformed WRITE or WRITE_POSTED, of which R54 does not say it. -/
def State.allocate (s : State) (i : EntryId) (fr : Frame) : State :=
  let cls := classOf fr.kind
  let e : Entry :=
    { Entry.free with
      state := .complete, cls := cls, kind := fr.kind, tag := fr.tag,
      posted := Kind.ofCode fr.kind == some .writePosted, generation := s.routes.generation }
  { s with table := { s.table with entries := Table.set s.table.entries i e }.raise cls }

/-- What the response of a DATA request refused with a status carries: nothing with BAD_REQUEST, else address and length,
and the outcomes of a group all of whose members finished (R54, R60, R149). -/
def Entry.refusalReply (e : Entry) (status : Status) : Reply :=
  if status = .badRequest then .nothing else e.dataReply status

/-- A frame refused at admission: COMPLETE on CTL (R54, R60), or FREE at once with POSTED_FAILED for a posted write (R54,
R61). -/
def State.refuse (s : State) (i : EntryId) (status : Status) : State :=
  if (s.entry i).posted then s.endPosted i status
  else s.completeEntry i status ((s.entry i).refusalReply status)

/-- A control request completes at admission on CTL (R62). -/
def State.answer (s : State) (i : EntryId) (status : Status) (reply : Reply) : State :=
  s.completeEntry i status reply

/-! ## Data requests -/

/-- A DIRECT request: refused BRANCH_DOWN when the branch of its member is down, otherwise QUEUED with its item at the tail
of that branch's queue and its source that branch (R39, R57, R59). -/
def State.placeDirect (s : State) (i : EntryId) (m : Member) : State :=
  let e := { s.entry i with members := [m] }
  if (s.engine m.branch).up then
    (s.setEntry i { e with state := .queued, source := .branch m.branch }).appendItem m.branch
      { entry := i, member := 0 }
  else (s.setEntry i e).refuse i .branchDown

/-- A GROUP member at admission: PENDING while its branch is up, otherwise FINISHED with BRANCH_DOWN (R58). -/
def State.spawnMember (s : State) (m : Member) : Member :=
  if (s.engine m.branch).up then m else { m with state := .finished, outcome := some .branchDown }

/-- One item for the `k`th member of an entry while it is PENDING (R59). -/
def State.placeMember (i : EntryId) (s : State) (x : Member × Nat) : State :=
  if x.1.state = .pending then s.appendItem x.1.branch { entry := i, member := x.2 } else s

/-- A GROUP request: members on branches that are up receive items in route order, the others finish BRANCH_DOWN; with no
member left the entry completes at admission (R58, R59, R110). -/
def State.placeGroup (s : State) (i : EntryId) (targets : List Member) : State :=
  let members := targets.map s.spawnMember
  let s := s.setEntry i { s.entry i with members := members, group := true, state := .queued, source := .ctl }
  (members.zipIdx.foldl (State.placeMember i) s).settle i

/-- A data request is resolved against the active bank and placed or refused (R51 steps 3 to 5, R56). -/
def State.resolve (s : State) (i : EntryId) (kind : Kind) (address : Half) (length : Nat) (data : List Byte)
    (watch : Option WatchRecord) : State :=
  let s := s.setEntry i { s.entry i with address := some address, length := some length, data := data }
  match s.routes.active.lookup kind address length with
  | .error status => s.refuse i status
  | .ok r =>
    let s := s.setEntry i { s.entry i with watch := watch }
    match r.kind, r.targets address with
    | .group, targets => s.placeGroup i targets
    | _, m :: _ => s.placeDirect i m
    | _, [] => s.refuse i .noRoute

/-! ## Route table requests -/

/-- STAGE_ROUTE (R11, R22). -/
def State.stage (s : State) (i : EntryId) (slot : SlotId) (record : Route) : State :=
  if s.routes.pendingCommit.isSome then s.answer i .stagingLocked (.stageRoute slot)
  else
    (s.setRoutes { s.routes with staging := Table.set s.routes.staging slot record }).answer i .ok
      (.stageRoute slot)

/-- DISCARD (R12, R22). -/
def State.discardStaging (s : State) (i : EntryId) : State :=
  if s.routes.pendingCommit.isSome then s.answer i .stagingLocked (.discard s.routes.generation)
  else
    (s.setRoutes { s.routes with staging := s.routes.active }).answer i .ok (.discard s.routes.generation)

/-- READ_ROUTE (R13). -/
def State.readSlot (s : State) (i : EntryId) (bank : BankSelector) (slot : SlotId) : State :=
  let record := match bank with
    | .active => Table.get s.routes.active slot
    | .staging => Table.get s.routes.staging slot
  s.answer i .ok (.readRoute bank slot record s.routes.generation)

/-- A commit is performed and the entry of its COMMIT completes OK with the new generation (R15, R16, R18). -/
def State.commitNow (s : State) (i : EntryId) : State :=
  let s := s.setRoutes s.routes.perform
  s.completeEntry i .ok (.commit s.routes.generation none)

/-- A quiesce wait starts: the entry goes HELD and the pending-commit record is created (R17). -/
def State.startQuiesce (s : State) (i : EntryId) (timeoutMs : Nat) : State :=
  (s.setEntry i { s.entry i with state := .held }).setRoutes
    { s.routes with
      pendingCommit :=
        some { entry := i, tag := (s.entry i).tag, remaining := timeoutMs * Config.unitsPerMs } }

/-- COMMIT, tested in the order of R14. -/
def State.commit (s : State) (i : EntryId) (expected : Half) (mode : CommitMode) (timeout : Half) : State :=
  let g := s.routes.generation
  if s.routes.pendingCommit.isSome then s.answer i .commitBusy (.commit g none)
  else if expected ≠ g then s.answer i .staleGeneration (.commit g none)
  else
    match s.routes.staging.validate with
    | some failure => s.answer i .tableInvalid (.commit g (some failure))
    | none =>
      match mode with
      | .immediate => s.commitNow i
      | .quiesce =>
        if s.table.dataInUse = 0 then s.commitNow i else s.startQuiesce i timeout.toNat

/-! ## Branch and arbiter requests -/

/-- A disable found at an engine: carried out at once, after a retry wait is ended with BRANCH_DOWN, or set pending while a
try or a recovery is on the wire (R89, R90). -/
def State.disable (s : State) (b : BranchId) : State :=
  let g := s.engine b
  match g.state with
  | .exchange | .recovery => s.setEngine b { g with disablePending := true }
  | .retryWait => ((s.setEngine b { g with retryTimer := none }).dismiss b .branchDown).carryOutDisable b
  | .idle | .disabled | .faulted => s.carryOutDisable b

/-- An enable found at an engine: a DISABLED engine goes IDLE, and the disable-pending flag is cleared (R90, R91). -/
def State.enable (s : State) (b : BranchId) : State :=
  let g := s.engine b
  s.setEngine b
    { g with disablePending := false, state := if g.state = .disabled then .idle else g.state }

/-- The record of an engine is replaced and its enabled field acts (R88). -/
def State.reconfigure (s : State) (b : BranchId) (config : BranchConfig) : State :=
  let s := s.setEngine b { s.engine b with config := config }
  if config.enabled then s.enable b else s.disable b

/-- SET_BRANCH: the record is replaced, and the response carries the engine as it then stands (R88). -/
def State.setBranch (s : State) (i : EntryId) (b : BranchId) (config : BranchConfig) : State :=
  let s := s.reconfigure b config
  s.answer i .ok (.setBranch b (s.engine b).state (s.engine b).disablePending)

/-- GET_BRANCH (R92). -/
def State.getBranch (s : State) (i : EntryId) (b : BranchId) : State :=
  let g := s.engine b
  s.answer i .ok (.getBranch b g.config g.state g.disablePending g.queue.length g.lastFault)

/-- SET_ARBITER (R147). -/
def State.configureArbiter (s : State) (i : EntryId) (config : ArbiterConfig) : State :=
  (s.setArbiter { s.arbiter with config := config }).answer i .ok (.setArbiter config)

/-! ## Status requests and RESET -/

/-- The snapshot of GET_STATUS (R182). -/
def State.snapshot (s : State) : Snapshot :=
  { inboundFree := s.rx.freeSlots
    dataInUse := s.table.dataInUse
    controlInUse := s.table.controlInUse
    commitRemaining := s.routes.pendingCommit.map PendingCommit.remainingMs
    arbiterMode := s.arbiter.config.mode
    branches := Table.map Engine.state s.engines
    noticeDepth := s.notices.queue.length
    lost := s.notices.lost
    generation := s.routes.generation }

/-- RESET: the halt flag is set, the scope is recorded with the entry, and the entry completes OK (R184). -/
def State.requestReset (s : State) (i : EntryId) (scope : ResetScope) : State :=
  let s := { s with halt := true }
  (s.setEntry i { s.entry i with scope := some scope }).answer i .ok (.reset scope)

/-! ## CANCEL -/

/-- A CANCEL ends the retry wait of an engine: the timer stops, the item leaves service, the counts are cleared and the
engine goes IDLE (R126). -/
def State.endRetryWait (s : State) (b : BranchId) : State :=
  s.setEngine b
    { s.engine b with state := .idle, retryTimer := none, inService := none, busyUsed := 0, checkUsed := 0 }

/-- What a CANCEL does to one member of a QUEUED or ACTIVE target (R123, R124). -/
def State.cancelMember (i : EntryId) (s : State) (x : Member × Nat) : State :=
  let it : Item := { entry := i, member := x.2 }
  let b := x.1.branch
  match x.1.state with
  | .finished | .dropped => s
  | .pending =>
    let s := s.setEngine b { s.engine b with queue := (s.engine b).queue.filter (· != it) }
    s.dropMember it
  | .inService =>
    if (s.engine b).state = .retryWait then (s.endRetryWait b).dropMember it
    else s.setEntry i { s.entry i with cancelRequested := true }

/-- What a CANCEL does to its target, by the target's state (R121 to R128), and the status of the CANCEL. -/
def State.cancelTarget (s : State) (i : EntryId) : State × Status :=
  match (s.entry i).state with
  | .queued | .active =>
    (((s.entry i).members.zipIdx.foldl (State.cancelMember i) s).settle i, .ok)
  | .waiting =>
    (((s.removeTimer i).dropMember { entry := i, member := 0 }).settle i, .ok)
  | .held =>
    ((s.setRoutes { s.routes with pendingCommit := none }).completeEntry i .cancelled
      (.commit s.routes.generation none), .ok)
  | .complete | .sending => (s, .tooLate)
  | .free => (s, .notFound)

/-- CANCEL: the effect on the target is taken first, and the CANCEL then completes (R121). -/
def State.cancel (s : State) (i : EntryId) (target : Byte) : State :=
  match s.findTag i target with
  | none => s.answer i .notFound (.cancel target)
  | some j =>
    let r := s.cancelTarget j
    r.1.answer i r.2 (.cancel target)

/-! ## Taking the head -/

/-- The owner of the state a request names executes it (R62), or a data request is resolved (R51). -/
def State.execute (s : State) (i : EntryId) : Request → State
  | .read a n => s.resolve i .read a n [] none
  | .write posted a d => s.resolve i (if posted then .writePosted else .write) a d.length d none
  | .watch a interval limit mask pattern =>
    s.resolve i .watch a mask.length []
      (some { mask := mask, pattern := pattern, interval := interval, remaining := limit, last := none })
  | .cancel t => s.cancel i t
  | .identify => s.answer i .ok (.identify s.rx.rate s.routes.generation)
  | .getStatus => s.answer i .ok (.status s.snapshot)
  | .stageRoute slot r => s.stage i slot r
  | .readRoute bank slot => s.readSlot i bank slot
  | .commit g m t => s.commit i g m t
  | .discard => s.discardStaging i
  | .setBranch b c => s.setBranch i b c
  | .getBranch b => s.getBranch i b
  | .setArbiter c => s.configureArbiter i c
  | .reset scope => s.requestReset i scope

/-- The checks of R51 on a taken frame: a tag in use discards it with DUPLICATE_TAG (R55); otherwise it is admitted into the
lowest-indexed FREE entry (R32), refused when malformed (R54), executed or resolved otherwise. DEDUCED, log entry 37: the refusal
of a malformed COMMIT carries no generation (R148, against R21). -/
def State.runChecks (s : State) (fr : Frame) : State :=
  if s.tagInUse fr.tag then s.hand (.duplicateTag fr.tag fr.kind)
  else
    match s.lowestFree with
    | none => s
    | some i =>
      match fr.request with
      | none => (s.allocate i fr).refuse i .badRequest
      | some r => (s.allocate i fr).execute i r

/-- The happening that takes the head (R44): the frame leaves the queue, its tag is recorded as the last-admitted tag (R47),
the rise of the free count is tested for CREDIT (R176), and the checks run. The receiver's CREDIT and the notice of the
checks come from different producers: a free choice says which is taken first (R160). DESIGN CHOICE, log entry 12: where the
checks hand several notices, as a SET_BRANCH disable can, the CREDIT stands before all of them or after all of them. -/
def State.takeHead (s : State) (fr : Frame) (rest : List Frame) : State :=
  let s := s.setRx { s.rx with inbound := rest, lastTag := some fr.tag }
  if s.rx.creditDue then
    let s' : State := { s with freeCount := s.freeCount + 1 }
    if Config.creditFirst s.freeCount then (s'.hand .credit).runChecks fr
    else (s'.runChecks fr).hand .credit
  else s.runChecks fr

/-- Admission takes the head if it is a frame the command names and every condition of R45 holds; otherwise the head
waits unchanged. -/
def State.take (s : State) (names : Frame → Bool) : State :=
  match s.rx.inbound with
  | [] => s
  | fr :: rest => if names fr && s.admissible fr.kind then s.takeHead fr rest else s

/-- The frame's kind code names a request kind. -/
def Frame.isKind (k : Kind) (fr : Frame) : Bool := Kind.ofCode fr.kind == some k

/-- The frame is of a kind with two commands, and the byte that tells them apart is not the other command's: a malformed
frame that names neither is taken by either. -/
def Frame.isKindExcept (k : Kind) (offset : Nat) (other : Byte) (fr : Frame) : Bool :=
  fr.isKind k && fr.payload[offset]? != some other

/-! ## The commands -/

/-- READ (R56). -/
def execRead (s : State) : Host.Outcome State Fault Refusal := .next (s.take (Frame.isKind .read))

/-- WRITE (R59). -/
def execWrite (s : State) : Host.Outcome State Fault Refusal := .next (s.take (Frame.isKind .write))

/-- WRITE_POSTED (R61). -/
def execWritePosted (s : State) : Host.Outcome State Fault Refusal :=
  .next (s.take (Frame.isKind .writePosted))

/-- WATCH (R95). -/
def execWatch (s : State) : Host.Outcome State Fault Refusal := .next (s.take (Frame.isKind .watch))

/-- CANCEL (R121). -/
def execCancel (s : State) : Host.Outcome State Fault Refusal := .next (s.take (Frame.isKind .cancel))

/-- IDENTIFY (R181). -/
def execIdentify (s : State) : Host.Outcome State Fault Refusal := .next (s.take (Frame.isKind .identify))

/-- GET_STATUS (R182). -/
def execGetStatus (s : State) : Host.Outcome State Fault Refusal :=
  .next (s.take (Frame.isKind .getStatus))

/-- STAGE_ROUTE (R11). -/
def execStageRoute (s : State) : Host.Outcome State Fault Refusal :=
  .next (s.take (Frame.isKind .stageRoute))

/-- READ_ROUTE (R13). -/
def execReadRoute (s : State) : Host.Outcome State Fault Refusal :=
  .next (s.take (Frame.isKind .readRoute))

/-- COMMIT_IMMEDIATE (R16): a COMMIT whose mode byte is not QUIESCE's. -/
def execCommitImmediate (s : State) : Host.Outcome State Fault Refusal :=
  .next (s.take (Frame.isKindExcept .commit 2 CommitMode.quiesce.code))

/-- COMMIT_QUIESCE (R17): a COMMIT whose mode byte is not IMMEDIATE's. -/
def execCommitQuiesce (s : State) : Host.Outcome State Fault Refusal :=
  .next (s.take (Frame.isKindExcept .commit 2 CommitMode.immediate.code))

/-- DISCARD (R12). -/
def execDiscard (s : State) : Host.Outcome State Fault Refusal := .next (s.take (Frame.isKind .discard))

/-- SET_BRANCH_ENABLE (R91): a SET_BRANCH whose enabled byte is not no. -/
def execSetBranchEnable (s : State) : Host.Outcome State Fault Refusal :=
  .next (s.take (Frame.isKindExcept .setBranch 1 (yesNo false)))

/-- SET_BRANCH_DISABLE (R89): a SET_BRANCH whose enabled byte is not yes. -/
def execSetBranchDisable (s : State) : Host.Outcome State Fault Refusal :=
  .next (s.take (Frame.isKindExcept .setBranch 1 (yesNo true)))

/-- GET_BRANCH (R92). -/
def execGetBranch (s : State) : Host.Outcome State Fault Refusal :=
  .next (s.take (Frame.isKind .getBranch))

/-- SET_ARBITER (R147). -/
def execSetArbiter (s : State) : Host.Outcome State Fault Refusal :=
  .next (s.take (Frame.isKind .setArbiter))

/-- RESET_SOFT (R184): a RESET whose scope byte is not FULL's. -/
def execResetSoft (s : State) : Host.Outcome State Fault Refusal :=
  .next (s.take (Frame.isKindExcept .reset 0 ResetScope.full.code))

/-- RESET_FULL (R184): a RESET whose scope byte is not SOFT's. -/
def execResetFull (s : State) : Host.Outcome State Fault Refusal :=
  .next (s.take (Frame.isKindExcept .reset 0 ResetScope.soft.code))

/-- UNKNOWN_KIND (R52). -/
def execUnknownKind (s : State) : Host.Outcome State Fault Refusal :=
  .next (s.take (fun fr => (Kind.ofCode fr.kind).isNone))

/-- QUIESCE_DRAIN: the pending commit is performed, its record removed, and the HELD entry completes OK (R18). -/
def State.drain (s : State) : State :=
  if s.drainDue then
    match s.routes.pendingCommit with
    | none => s
    | some p =>
      let s := s.setRoutes { s.routes.perform with pendingCommit := none }
      if (s.entry p.entry).state = .held then
        s.completeEntry p.entry .ok (.commit s.routes.generation none)
      else s
  else s

/-- QUIESCE_TIMEOUT: the record is removed without a commit, and the HELD entry completes QUIESCE_TIMEOUT (R19). -/
def State.expireQuiesce (s : State) : State :=
  if s.stopped then s
  else
    match s.routes.pendingCommit with
    | none => s
    | some p =>
      let s := s.setRoutes { s.routes with pendingCommit := none }
      if (s.entry p.entry).state = .held then
        s.completeEntry p.entry .quiesceTimeout (.commit s.routes.generation none)
      else s

/-- QUIESCE_DRAIN (R18). -/
def execQuiesceDrain (s : State) : Host.Outcome State Fault Refusal := .next s.drain

/-- QUIESCE_TIMEOUT (R19). -/
def execQuiesceTimeout (s : State) : Host.Outcome State Fault Refusal := .next s.expireQuiesce

end Sys2Proof.Machine
end

