-- ==== Sys2Proof/Machine/Engines.lean ====
section
/-! DEFINITION. The branch engines: taking an item (R77), the try and its result (R67 to R71), repeats (R79, R80), recovery
(R82 to R87), the closing mark of a FULL reset (R93), and the watch timer that sends an entry back to its branch (R104). -/

namespace Sys2Proof.Machine

/-! ## The cells of an exchange -/

/-- The operation of an item is READ: its entry is a READ or a WATCH (4.2). -/
def Entry.reads (e : Entry) : Bool :=
  match Kind.ofCode e.kind with
  | some .read | some .watch => true
  | _ => false

/-- The header cell: the device in the five high bits, 001 for READ and 010 for WRITE in the three low bits (R68). -/
def headerCell (device : Byte) (reads : Bool) : Byte :=
  (device <<< 3) ||| (if reads then 1#8 else 2#8)

/-- The header, index and count cells of a member's exchange (R68, R69). -/
def Entry.leadCells (e : Entry) (m : Member) : List Byte :=
  [headerCell m.device e.reads, m.register, Byte.ofCount (e.length.getD 0)]

/-- The cells the FH416 sends to a present device: the lead cells, and in a WRITE the data cells and the check cell (R69,
R72). -/
def Entry.sentCells (e : Entry) (m : Member) : List Byte :=
  if e.reads then e.leadCells m
  else e.leadCells m ++ e.data ++ [crc8 (e.leadCells m ++ e.data)]

/-- The `k`th cell the target sends; a line that nobody drives reads high (R69, R70). -/
def cellAt (cells : List Byte) (k : Nat) : Byte := cells.getD k 0xFF#8

/-- The result a status cell stands for (R69). -/
def statusResult (cell : Byte) : TryResult :=
  if cell = 0x5A#8 then .good []
  else if cell = 0x33#8 then .busy
  else if cell = 0x0F#8 then .rejected
  else .checkFailure

/-- The result of a READ: the data cells are good when the check cell agrees with the check over the lead cells sent and
the data cells received (R70). -/
def Entry.readResult (e : Entry) (m : Member) (cells : List Byte) : TryResult :=
  let n := e.length.getD 0
  let value := (List.range n).map (cellAt cells)
  if crc8 (e.leadCells m ++ value) = cellAt cells n then .good value else .checkFailure

/-- The result of an exchange that ran to its closing mark, from what the target did (R68 to R70, 4.6). -/
def Entry.tryResult (e : Entry) (m : Member) : TargetAnswer → TryResult
  | .absent => .noDevice
  | .busy => .busy
  | .rejected => .rejected
  | .cells sent => if e.reads then e.readResult m sent else statusResult (cellAt sent 0)

/-- The cells the FH416 sends for an item. -/
def State.cellsOf (s : State) (it : Item) : List Byte :=
  match s.member it with
  | some m => (s.entry it.entry).sentCells m
  | none => []

/-! ## Tries -/

/-- A try begins: the configuration copy is taken and the lines are sampled; both high gives EXCHANGE, otherwise a recovery
sequence runs first (R67, R74, R84). -/
def State.beginTry (s : State) (b : BranchId) (bck bda : Bool) : State :=
  let g := s.engine b
  if bck && bda then
    s.setEngine b
      { g with state := .exchange, copy := some g.config, retryTimer := none,
               wire := .exchange ((g.inService.map s.cellsOf).getD []) }
  else
    s.setEngine b
      { g with state := .recovery, copy := some g.config, retryTimer := none,
               wire := .recovery .beforeTry }

/-- An IDLE engine takes the head item, clears its retry counts, and begins the first try (R77). -/
def State.takeItem (s : State) (b : BranchId) (bck bda : Bool) : State :=
  if s.canTake b then
    match (s.engine b).queue with
    | [] => s
    | it :: rest =>
      let s := s.setEngine b
        { s.engine b with queue := rest, inService := some it, busyUsed := 0, checkUsed := 0 }
      (s.serveMember it).beginTry b bck bda
  else s

/-- The item in service ends with an outcome other than a good read or ACCEPT (R78, R100). -/
def State.endItemWith (s : State) (b : BranchId) (it : Item) (outcome : Status) : State :=
  (s.finishMember it outcome).endItem b

/-- The item in service ends with ACCEPT or a good read: a READ stores the value (R29), a WATCH hands it to the watch
operation (R98). -/
def State.endItemGood (s : State) (b : BranchId) (it : Item) (value : List Byte) : State :=
  let e := s.entry it.entry
  match Kind.ofCode e.kind with
  | some .read => ((s.setEntry it.entry { e with data := value }).finishMember it .ok).endItem b
  | some .watch => (s.endWatchRead it value).endItem b
  | _ => (s.finishMember it .ok).endItem b

/-- No repeat is made: cancel requested is set in the entry, or disable pending at the engine (R81). -/
def State.noRepeat (s : State) (b : BranchId) (it : Item) : Bool :=
  (s.entry it.entry).cancelRequested || (s.engine b).disablePending

/-- A try that ended with BUSY: repeated at once or after the retry delay while the limit of the try's copy allows, ended
with BUSY otherwise (R79, R81). -/
def State.busyEnd (s : State) (b : BranchId) (it : Item) (bck bda : Bool) : State :=
  let g := s.engine b
  let copy := g.copy.getD g.config
  if !s.noRepeat b it && decide (g.busyUsed < copy.busyLimit) then
    if copy.retryDelay = 0 then
      (s.setEngine b { g with busyUsed := g.busyUsed + 1 }).beginTry b bck bda
    else
      s.setEngine b
        { g with state := .retryWait, busyUsed := g.busyUsed + 1, copy := none, wire := .released,
                 retryTimer := some (copy.retryDelay * Config.unitsPerMs) }
  else s.endItemWith b it .busy

/-- A try that ended with a check failure: repeated at once while the limit of the try's copy allows, ended with CHECK_ERROR
otherwise (R80, R81). -/
def State.checkEnd (s : State) (b : BranchId) (it : Item) (bck bda : Bool) : State :=
  let g := s.engine b
  let copy := g.copy.getD g.config
  if !s.noRepeat b it && decide (g.checkUsed < copy.checkLimit) then
    (s.setEngine b { g with checkUsed := g.checkUsed + 1 }).beginTry b bck bda
  else s.endItemWith b it .checkError

/-- The decision at the closing mark (R78). -/
def State.endTry (s : State) (b : BranchId) (it : Item) (result : TryResult) (bck bda : Bool) : State :=
  match result with
  | .good value => s.endItemGood b it value
  | .busy => s.busyEnd b it bck bda
  | .checkFailure => s.checkEnd b it bck bda
  | .rejected => s.endItemWith b it .rejected
  | .noDevice => s.endItemWith b it .noDevice

/-- The item an engine in a given state serves; none when the part is stopped or the engine is in another state. -/
def State.servedIn (s : State) (b : BranchId) (st : EngineState) : Option Item :=
  if !s.stopped && (s.engine b).state == st then (s.engine b).inService else none

/-- An exchange's closing mark ends (R71, R78). -/
def State.endExchange (s : State) (b : BranchId) (answer : TargetAnswer) (bck bda : Bool) : State :=
  match s.servedIn b .exchange with
  | none => s
  | some it =>
    match s.member it with
    | none => s
    | some m => s.endTry b it ((s.entry it.entry).tryResult m answer) bck bda

/-- A hold outlasts the hold timeout: the exchange ends at that moment and the recovery sequence runs in place of the
closing mark, at the try's speed class (R66, R85). -/
def State.timeOutHold (s : State) (b : BranchId) : State :=
  match s.servedIn b .exchange with
  | none => s
  | some _ => s.setEngine b { s.engine b with state := .recovery, wire := .recovery .afterHold }

/-- The retry timer runs out and the repeat begins (R79). -/
def State.expireRetry (s : State) (b : BranchId) (bck bda : Bool) : State :=
  match s.servedIn b .retryWait with
  | none => s
  | some _ => s.beginTry b bck bda

/-! ## Recovery -/

/-- A recovery before a try succeeds: the opening mark is formed at once, unless cancel requested drops the member or
disable pending ends it with BRANCH_DOWN (R84). -/
def State.tryAfterRecovery (s : State) (b : BranchId) (it : Item) : State :=
  let g := s.engine b
  if (s.entry it.entry).cancelRequested then ((s.dropMember it).settle it.entry).endItem b
  else if g.disablePending then s.endItemWith b it .branchDown
  else s.setEngine b { g with state := .exchange, wire := .exchange (s.cellsOf it) }

/-- A recovery without an item, under a SOFT reset, succeeds (R94). -/
def State.endBareRecovery (s : State) (b : BranchId) : State :=
  let g := s.engine b
  let s := s.setEngine b
    { g with state := if g.config.enabled then .idle else .disabled, inService := none, copy := none,
             wire := .released }
  if g.disablePending then s.carryOutDisable b else s

/-- The fault reason of a recovery that fails (R84, R85, R94). -/
def RecoveryCause.reason : RecoveryCause → BranchReason
  | .beforeTry => .stuckLine
  | .afterHold => .hold
  | .softReset => .stuckLine

/-- A recovery sequence of an item or of a SOFT reset ends with the lines sampled (R82, R84 to R86, R94). -/
def State.endRecovery (s : State) (b : BranchId) (bck bda : Bool) : State :=
  let g := s.engine b
  if s.stopped || g.state != .recovery then s
  else
    match g.wire with
    | .recovery cause =>
      if bck && bda then
        match g.inService, cause with
        | some it, .beforeTry => s.tryAfterRecovery b it
        | some it, .afterHold => s.endItemWith b it .holdTimeout
        | some _, .softReset => s.endBareRecovery b
        | none, _ => s.endBareRecovery b
      else s.fault b cause.reason
    | .released | .exchange _ | .attempt | .closingMark => s

/-- The recovery timer of a FAULTED engine runs out: a periodic attempt begins with a configuration copy taken at its start,
and the engine stays FAULTED (R87). -/
def State.expireRecovery (s : State) (b : BranchId) : State :=
  let g := s.engine b
  if !s.stopped && g.state == .faulted && g.recoveryTimer.isSome then
    s.setEngine b { g with recoveryTimer := none, copy := some g.config, wire := .attempt }
  else s

/-- A periodic attempt ends: IDLE with BRANCH_STATE RECOVERED, or the recovery timer restarts (R87). -/
def State.endAttempt (s : State) (b : BranchId) (bck bda : Bool) : State :=
  let g := s.engine b
  if !s.stopped && g.state == .faulted && g.wire == .attempt then
    if bck && bda then
      (s.setEngine b { g with state := .idle, copy := none, wire := .released }).hand
        (.branchState b .idle .recovered)
    else
      s.setEngine b { g with recoveryTimer := some Config.recoveryUnits, copy := none, wire := .released }
  else s

/-- The closing mark that a FULL reset formed ends: the lines are released, and an engine that was in EXCHANGE or RECOVERY goes
DISABLED (R93). DEDUCED, log entry 9: one that a SET_BRANCH enabled during the mark goes IDLE, and one that goes DISABLED ends
what was placed on its branch meanwhile as a disable does. -/
def State.endClosingMark (s : State) (b : BranchId) : State :=
  let g := s.engine b
  if !s.stopped && g.wire == .closingMark then
    let s := s.setEngine b { g with wire := .released }
    match g.state with
    | .exchange | .recovery =>
      if g.config.enabled && !g.disablePending then s.setEngine b { g with state := .idle, wire := .released }
      else s.carryOutDisable b
    | .disabled | .idle | .retryWait | .faulted => s
  else s

/-! ## Watch timers -/

/-- A watch timer runs out: it leaves the list, its entry goes QUEUED and its item joins the tail of the branch queue
(R104). -/
def State.expireWatch (s : State) (i : EntryId) : State :=
  if !s.stopped && s.timers.any (fun t => t.entry == i) && (s.entry i).state == .waiting then
    match s.member { entry := i, member := 0 } with
    | none => s
    | some m =>
      let s := s.removeTimer i
      (s.setEntry i { s.entry i with state := .queued }).appendItem m.branch { entry := i, member := 0 }
  else s

/-! ## The commands -/

/-- ENGINE_TAKE_ITEM (R77). -/
def execEngineTakeItem (b : BranchId) (bck bda : Bool) (s : State) : Host.Outcome State Fault Refusal :=
  .next (s.takeItem b bck bda)

/-- EXCHANGE_END (R78). -/
def execExchangeEnd (b : BranchId) (answer : TargetAnswer) (bck bda : Bool) (s : State) :
    Host.Outcome State Fault Refusal :=
  .next (s.endExchange b answer bck bda)

/-- HOLD_TIMEOUT (R66). -/
def execHoldTimeout (b : BranchId) (s : State) : Host.Outcome State Fault Refusal :=
  .next (s.timeOutHold b)

/-- RETRY_TIMER_EXPIRY (R79). -/
def execRetryTimerExpiry (b : BranchId) (bck bda : Bool) (s : State) : Host.Outcome State Fault Refusal :=
  .next (s.expireRetry b bck bda)

/-- RECOVERY_END (R82). -/
def execRecoveryEnd (b : BranchId) (bck bda : Bool) (s : State) : Host.Outcome State Fault Refusal :=
  .next (s.endRecovery b bck bda)

/-- RECOVERY_TIMER_EXPIRY (R87). -/
def execRecoveryTimerExpiry (b : BranchId) (s : State) : Host.Outcome State Fault Refusal :=
  .next (s.expireRecovery b)

/-- PERIODIC_RECOVERY_END (R87). -/
def execPeriodicRecoveryEnd (b : BranchId) (bck bda : Bool) (s : State) :
    Host.Outcome State Fault Refusal :=
  .next (s.endAttempt b bck bda)

/-- RESET_CLOSING_MARK_END (R93). -/
def execResetClosingMarkEnd (b : BranchId) (s : State) : Host.Outcome State Fault Refusal :=
  .next (s.endClosingMark b)

/-- WATCH_TIMER_EXPIRY (R104). -/
def execWatchTimerExpiry (i : EntryId) (s : State) : Host.Outcome State Fault Refusal :=
  .next (s.expireWatch i)

end Sys2Proof.Machine
end

