-- ==== Sys2Proof/Machine/Resets.lean ====
section
/-! DEFINITION. The reset that a RESET's response frame brings into effect (R186), the conditions that stop the part (R189)
and start-up (R190): what each block holds afterwards (R5, R43, R48, R93, R94, R107, R151, R162, R163, R180). -/

namespace Sys2Proof.Machine

/-- The receiver at start-up: HUNT with an empty inbound queue, credit 8, no last-admitted tag; TRXD at spacing sets waiting
for marking and starts the spacing timer afresh (R180, R190). -/
def Receiver.atStart (trxd : Level) (rate : RateCode) : Receiver :=
  match trxd with
  | .marking => Receiver.reset rate
  | .spacing => { Receiver.reset rate with waiting := true, spacing := some (breakUnits rate) }

/-- The receiver after a SOFT or FULL reset: as at start-up (R180, R188), and a break that was on may still end together with
the reset (R188). A character in progress is not completed where the rate code changes (R180, R187). DEDUCED, log entry 23: it
is cut off too where TRXD is at spacing, since the receiver then waits for marking, and goes on otherwise. -/
def Receiver.afterReset (rx : Receiver) (trxd : Level) (rate : RateCode) : Receiver :=
  let goesOn := trxd == .marking && rate == rx.rate
  { Receiver.atStart trxd rate with
    inCharacter := rx.inCharacter && goesOn
    cut := rx.cut || (rx.inCharacter && !goesOn)
    breakEnding := rx.state == .inBreak }

/-- The route table unit after a SOFT reset: banks and generation kept, a pending commit removed (R5). -/
def RouteUnit.afterSoft (r : RouteUnit) : RouteUnit := { r with pendingCommit := none }

/-- The wire of a branch as a FULL reset leaves it: activity ends with a closing mark (R93). -/
def Wire.afterFull : Wire → Wire
  | .released => .released
  | .exchange _ | .recovery _ | .attempt | .closingMark => .closingMark

/-- The state of an engine as a FULL reset leaves it: one in EXCHANGE or RECOVERY first ends its closing mark, any other is
DISABLED at once (R93). -/
def EngineState.afterFull : EngineState → EngineState
  | .exchange => .exchange
  | .recovery => .recovery
  | .disabled | .idle | .retryWait | .faulted => .disabled

/-- An engine after a FULL reset (R93). -/
def Engine.afterFull (g : Engine) : Engine :=
  { Engine.reset with state := g.state.afterFull, wire := g.wire.afterFull }

/-- An engine after a SOFT reset: items removed, configuration, flag and last fault reason kept, and the state by the table
of R94. DEDUCED, log entry 9: the closing mark of an earlier FULL reset goes on, since no exchange is left to abandon. -/
def Engine.afterSoft (g : Engine) : Engine :=
  let k := { g with queue := [], inService := none, retryTimer := none, busyUsed := 0, checkUsed := 0 }
  match g.state with
  | .disabled | .idle | .faulted | .recovery => k
  | .retryWait =>
    { k with state := if g.config.enabled then .idle else .disabled, copy := none, wire := .released }
  | .exchange =>
    if g.wire = .closingMark then k
    else { k with state := .recovery, copy := some g.config, wire := .recovery .softReset }

/-- The arbiter after a SOFT reset: configuration and decision mode kept (R151). -/
def Arbiter.afterSoft (a : Arbiter) : Arbiter :=
  { Arbiter.reset with config := a.config, decisionMode := a.decisionMode }

/-- The notice unit after a SOFT reset: emptied, LOST clear, the sequence counter kept (R162). -/
def NoticeUnit.afterSoft (n : NoticeUnit) : NoticeUnit := { NoticeUnit.reset with sequence := n.sequence }

/-- A SOFT reset takes effect (R186); READY is handed last (R163). -/
def State.resetSoft (s : State) : State :=
  let s := { s with
    rx := s.rx.afterReset s.trxd s.rx.rate
    halt := false
    routes := s.routes.afterSoft
    table := OutstandingTable.reset
    engines := Table.map Engine.afterSoft s.engines
    timers := []
    arbiter := s.arbiter.afterSoft
    notices := s.notices.afterSoft
    tx := none }
  s.hand (.ready .soft s.routes.generation)

/-- A FULL reset takes effect with the rate code taken anew from the strap pins (R186, R187); READY is handed last. -/
def State.resetFull (s : State) (straps : RateCode) : State :=
  let s := { s with
    straps := straps
    rx := s.rx.afterReset s.trxd straps
    halt := false
    routes := RouteUnit.reset
    table := OutstandingTable.reset
    engines := Table.map Engine.afterFull s.engines
    timers := []
    arbiter := Arbiter.reset
    notices := NoticeUnit.reset
    tx := none }
  s.hand (.ready .full 0#16)

/-- The reset of a scope takes effect (R186). -/
def State.takeEffect (s : State) (scope : ResetScope) (straps : RateCode) : State :=
  match scope with
  | .soft => s.resetSoft
  | .full => s.resetFull straps

/-- Start-up: the rate code is sampled, every block takes its power-on values, and READY is handed with its cause (R190). -/
def State.startUp (s : State) (straps : RateCode) (cause : ResetCause) : State :=
  let s := { s with
    supply := Supply.running
    straps := straps
    rx := Receiver.atStart s.trxd straps
    halt := false
    routes := RouteUnit.reset
    table := OutstandingTable.reset
    engines := Vector.replicate 4 Engine.reset
    timers := []
    arbiter := Arbiter.reset
    notices := NoticeUnit.reset
    tx := none }
  s.hand (.ready cause 0#16)

/-- The part stops at once: the frame on TTXD is cut, every branch line released, and the character or frame being received
abandoned without LINK_ERROR (R189). -/
def State.stop (s : State) : State :=
  { s with
    tx := none
    engines := Table.map (fun g : Engine => { g with wire := .released }) s.engines
    rx := { s.rx with
      state := .hunt, building := none, gap := none, spacing := none, inCharacter := false, cut := false,
      breakEnding := false } }

/-- The power-on condition begins (R189). -/
def State.failPower (s : State) : State :=
  { s with supply := { s.supply with powerCondition := true, powerSinceStart := true } }.stop

/-- The power-on condition ends; with no RSTn condition present start-up begins with cause POWER (R189, R190). -/
def State.stabilizePower (s : State) (straps : RateCode) : State :=
  if !s.supply.powerCondition then s
  else if s.supply.pinCondition then { s with supply := { s.supply with powerCondition := false } }
  else s.startUp straps .power

/-- The RSTn condition begins (R189). -/
def State.assertPin (s : State) : State :=
  { s with supply := { s.supply with pinCondition := true } }.stop

/-- The RSTn condition ends; with no power-on condition present start-up begins, with cause POWER when a power-on condition
arose since the last start-up and PIN otherwise (R190). -/
def State.releasePin (s : State) (straps : RateCode) : State :=
  if !s.supply.pinCondition then s
  else if s.supply.powerCondition then { s with supply := { s.supply with pinCondition := false } }
  else s.startUp straps (if s.supply.powerSinceStart then .power else .pin)

/-- POWER_FAIL (R189). -/
def execPowerFail (s : State) : Host.Outcome State Fault Refusal := .next s.failPower

/-- POWER_STABLE (R189). -/
def execPowerStable (straps : RateCode) (s : State) : Host.Outcome State Fault Refusal :=
  .next (s.stabilizePower straps)

/-- RSTN_ASSERT (R189). -/
def execRstnAssert (s : State) : Host.Outcome State Fault Refusal := .next s.assertPin

/-- RSTN_RELEASE (R190). -/
def execRstnRelease (straps : RateCode) (s : State) : Host.Outcome State Fault Refusal :=
  .next (s.releasePin straps)

end Sys2Proof.Machine
end

