-- ==== Sys2Proof/Machine/Frames.lean ====
section
/-! DEFINITION. The frames the FH416 sends: the envelope (R166, 12.1), the response payloads (12.5), the notice payloads
(12.6) and the encoding of absent items (R193). -/

namespace Sys2Proof.Machine

/-- The start byte of every frame (R166). -/
def startByte : Byte := 0xB5#8

/-- The bytes the CRC covers: length byte, kind, tag, payload (R167). -/
def Frame.covered (fr : Frame) : List Byte :=
  Byte.ofCount fr.lengthByte :: fr.kind :: fr.tag :: fr.payload

/-- A frame as characters: start byte, length byte, kind, tag, payload, CRC high byte first (R166). -/
def Frame.characters (fr : Frame) : List Byte :=
  startByte :: (fr.covered ++ halfBytes (crc16 fr.covered))

/-- A member-outcome list as sent: the member count, then branch and outcome of each in route order (12.5, R116). -/
def outcomeBytes (l : List (BranchId × Status)) : List Byte :=
  Byte.ofCount l.length :: l.flatMap (fun x => [Byte.ofCount x.1.val, x.2.code])

/-- The fields of IDENTIFY after the status (R181, 12.5). -/
def identifyBytes (rate : RateCode) (generation : Half) : List Byte :=
  halfBytes Config.vendorCode ++ halfBytes Config.partCode
    ++ [Config.revision, 16#8, Byte.ofCount Config.dataEntries, 32#8, 4#8,
        Byte.ofCount Config.inboundSlots, Byte.ofCount Config.noticeSlots, rate.setWidth 8]
    ++ halfBytes generation

/-- The fields of GET_STATUS after the status (R182, 12.5); with no commit pending the mode is 0xFF and the time 0 (R193). -/
def Snapshot.bytes (x : Snapshot) : List Byte :=
  [Byte.ofCount x.inboundFree, Byte.ofCount x.dataInUse, Byte.ofCount x.controlInUse]
    ++ (match x.commitRemaining with
        | some ms => [1#8, CommitMode.quiesce.code] ++ halfBytes (BitVec.ofNat 16 ms)
        | none => [0#8, 0xFF#8, 0#8, 0#8])
    ++ [x.arbiterMode.code] ++ x.branches.toList.map EngineState.code
    ++ [Byte.ofCount x.noticeDepth, yesNo x.lost] ++ halfBytes x.generation

/-- What TABLE_INVALID adds to the generation of a COMMIT response; the other slot is 0xFF unless the reason is OVERLAP
(R193). -/
def failureBytes : Option ValidityFailure → List Byte
  | none => []
  | some f =>
    [Byte.ofCount f.slot.val, f.reason.code,
      match f.other with
      | some j => Byte.ofCount j.val
      | none => 0xFF#8]

/-- The fields of a response after the status (12.5). -/
def Reply.bytes : Reply → List Byte
  | .nothing => []
  | .read a n data => halfBytes a ++ [Byte.ofCount n] ++ data.getD []
  | .write a n outcomes => halfBytes a ++ [Byte.ofCount n] ++ outcomeBytes outcomes
  | .watch a n value =>
    halfBytes a ++ [Byte.ofCount n] ++
      (match value with
       | some v => 1#8 :: v
       | none => [0#8])
  | .cancel t => [t]
  | .identify rate g => identifyBytes rate g
  | .status x => x.bytes
  | .stageRoute sl => [Byte.ofCount sl.val]
  | .readRoute bk sl r g => [bk.code, Byte.ofCount sl.val] ++ r.bytes ++ halfBytes g
  | .commit g f => halfBytes g ++ failureBytes f
  | .discard g => halfBytes g
  | .setBranch b st dp => [Byte.ofCount b.val, st.code, yesNo dp]
  | .getBranch b c st dp depth reason =>
    Byte.ofCount b.val :: (c.bytes ++ [st.code, yesNo dp, Byte.ofCount depth, reason.code])
  | .setArbiter c => c.bytes
  | .reset sc => [sc.code]

/-- The response frame of an entry: credit, request kind as received, status, then the reply; BAD_REQUEST carries nothing
more (R148, 12.5). DEDUCED, log entry 37: that holds also for a COMMIT, to every answer of which R21 gives a generation, and for
the other kinds that R4 names. -/
def Entry.responseFrame (e : Entry) (credit : Nat) : Frame :=
  let status := e.status.getD .ok
  { kind := responseCode, tag := e.tag,
    payload := [Byte.ofCount credit, e.kind, status.code]
      ++ (if status = .badRequest then [] else e.reply.bytes) }

/-- The payload of a notice after its type (12.6). -/
def Notice.bytes : Notice → List Byte
  | .ready cause g => cause.code :: halfBytes g
  | .resync tag =>
    match tag with
    | some t => [1#8, t]
    | none => [0#8, 0#8]
  | .credit => []
  | .overrun first count => [first, Byte.ofCount count]
  | .linkError first count => [first.code, Byte.ofCount count]
  | .postedFailed tag status outcomes => [tag, status.code] ++ outcomeBytes outcomes
  | .duplicateTag tag kind => [tag, kind]
  | .branchState b st reason => [Byte.ofCount b.val, st.code, reason.code]

/-- The frame of a notice: the tag byte carries the sequence number and bit 0 of the flags byte the LOST flag (R153,
R158, 12.1). -/
def Notice.frame (x : Notice) (sequence : Byte) (lost : Bool) (credit : Nat) : Frame :=
  { kind := noticeCode, tag := sequence,
    payload := [Byte.ofCount credit, yesNo lost, x.code] ++ x.bytes }

end Sys2Proof.Machine
end

