-- ==== Sys2Proof/Machine/Trunk.lean ====
section
/-! DEFINITION. The trunk: the receiver (10.3 to 10.6), the arbiter's decisions (8.3, 8.4), the beginning and the end of a
frame on TTXD (8.5, 10.7). -/

namespace Sys2Proof.Machine

/-! ## The receiver -/

/-- The frame being received ends or is abandoned: the partial frame is discarded, the gap timer stops, and the receiver
returns to HUNT (R168, R169, R170). -/
def Receiver.toHunt (rx : Receiver) : Receiver :=
  { rx with state := .hunt, building := none, gap := none }

/-- The frame being received is abandoned with a LINK_ERROR (R169 to R172). -/
def State.abandon (s : State) (reason : LinkReason) : State :=
  (s.setRx s.rx.toHunt).hand (.linkError reason 1)

/-- A frame is being received (R168). -/
def Receiver.receiving (rx : Receiver) : Bool :=
  rx.state == .length || rx.state == .body || rx.state == .check

/-- The receiver takes characters: the part runs, no break is on, it does not wait for marking (R165, R168), and no character
that a reset cut off is still on the line (R187). -/
def State.takesCharacters (s : State) : Bool :=
  !s.stopped && s.rx.state != .inBreak && !s.rx.waiting && !s.rx.cut

/-- The frame that L body bytes make: kind, tag and payload (R166). -/
def frameOfBody (body : List Byte) : Frame :=
  { kind := body.getD 0 0#8, tag := body.getD 1 0#8, payload := body.drop 2 }

/-- The end of the second CRC character: the CRC is compared over length byte and body, and the frame joins the inbound
queue, is discarded by overrun, or is abandoned (R170, R173, R174). -/
def State.endFrameReception (s : State) (length : Nat) (body crc : List Byte) : State :=
  if halfBytes (crc16 (Byte.ofCount length :: body)) = crc then
    let fr := frameOfBody body
    if s.rx.inbound.length < Config.inboundSlots then
      s.setRx { s.rx.toHunt with inbound := s.rx.inbound ++ [fr] }
    else (s.setRx s.rx.toHunt).hand (.overrun fr.tag 1)
  else s.abandon .crc

/-- A good character by the receive state (R169, R170): its value, and the gap timer, which restarted at its start (R171). -/
def State.receive (s : State) (value : Byte) : State :=
  let rx := s.rx
  let gap := some (gapUnitsAtCharacterEnd rx.rate)
  match rx.state with
  | .hunt =>
    if value = startByte then
      s.setRx { rx with state := .length, building := some ⟨none, [], []⟩, gap := gap }
    else s
  | .length =>
    if 2 ≤ value.toNat ∧ value.toNat ≤ 40 then
      s.setRx { rx with state := .body, building := some ⟨some value.toNat, [], []⟩, gap := gap }
    else s.abandon .length
  | .body =>
    match rx.building with
    | some ⟨some l, body, crc⟩ =>
      let body := body ++ [value]
      s.setRx { rx with state := if body.length < l then .body else .check,
                        building := some ⟨some l, body, crc⟩, gap := gap }
    | _ => s
  | .check =>
    match rx.building with
    | some ⟨some l, body, []⟩ => s.setRx { rx with building := some ⟨some l, body, [value]⟩, gap := gap }
    | some ⟨some l, body, crc⟩ => s.endFrameReception l body (crc ++ [value])
    | _ => s
  | .inBreak => s

/-- TRXD falls from marking to spacing (R165, R168, R171): the spacing timer starts; the fall begins a character when the
receiver looks for a start bit and it is no false start, and the start of a character restarts the gap timer of a frame
being received. A stopped part does not look at the line (R189). -/
def State.fall (s : State) (falseStart : Bool) : State :=
  if s.trxd = .spacing then s
  else
    let s := { s with trxd := .spacing }
    if s.stopped then s
    else
      let rx := { s.rx with spacing := some (breakUnits s.rx.rate), breakEnding := false }
      if falseStart || rx.inCharacter || rx.waiting || rx.state == .inBreak then s.setRx rx
      else
        s.setRx
          { rx with inCharacter := true
                    cut := false
                    gap := if rx.receiving then some (gapUnits rx.rate) else rx.gap }

/-- TRXD returns to marking (R165, R168, R178): waiting for marking is cleared and the spacing timer stops; after a break
the receiver goes to HUNT and hands RESYNC with the last-admitted tag. `breakEnds` says that the return ends a break: one that
was on when a reset took effect at this moment has its end taken after the reset (R188). -/
def State.riseToMarking (s : State) (breakEnds : Bool) : State :=
  let s := { s with trxd := .marking }
  if s.stopped then s
  else
    let rx := { s.rx with waiting := false, spacing := none, breakEnding := false }
    if rx.state == .inBreak || (breakEnds && s.rx.breakEnding) then
      (s.setRx { rx with state := .hunt }).hand (.resync rx.lastTag)
    else s.setRx rx

/-- A good character ends: TRXD is at marking, and its value goes to the receive state (R165). One that a reset cut off is not
completed (R187): its end only returns TRXD to marking. -/
def State.goodCharacter (s : State) (value : Byte) : State :=
  if !s.stopped && s.rx.cut then (s.setRx { s.rx with cut := false }).riseToMarking false
  else if s.takesCharacters then
    { s with trxd := .marking, rx := { s.rx with inCharacter := false, spacing := none } }.receive value
  else s

/-- A character error: the receiver waits for marking, and a frame being received is abandoned (R165, R172). A character that
a reset cut off gives none (R187). -/
def State.badCharacter (s : State) : State :=
  if !s.stopped && s.rx.cut then { s with trxd := .spacing, rx := { s.rx with cut := false } }
  else if s.takesCharacters then
    let s := { s with trxd := .spacing, rx := { s.rx with inCharacter := false, waiting := true } }
    if s.rx.receiving then s.abandon .char else s
  else s

/-- The gap timer runs out (R171). -/
def State.expireGap (s : State) : State :=
  if !s.stopped && s.rx.receiving then s.abandon .gap else s

/-- TRXD has stayed at spacing for two character times: BREAK (R177). The partial frame and the inbound queue are discarded,
and the rise of the free count is tested for CREDIT. -/
def State.enterBreak (s : State) : State :=
  let s := { s with trxd := .spacing }
  if s.stopped || s.rx.state == .inBreak then s
  else
    let rises := !s.rx.inbound.isEmpty
    let rx := { s.rx with
      state := .inBreak, building := none, gap := none, spacing := none, inCharacter := false, cut := false,
      breakEnding := false, inbound := [] }
    let s := s.setRx rx
    if rises && rx.creditDue then s.hand .credit else s

/-! ## The arbiter -/

/-- At a decision a mode that differs from the decision mode empties the round set and ends the grant (R147). -/
def Arbiter.sync (a : Arbiter) : Arbiter :=
  if a.config.mode = a.decisionMode then a
  else { a with decisionMode := a.config.mode, roundSet := [], grant := none }

/-- The yield policy ends the burst of a source early for a ready source (R143). -/
def Arbiter.yields (a : Arbiter) (ready : Source → Bool) (src : Source) : Bool :=
  match a.config.yieldPolicy, a.config.mode with
  | .atBurst, _ => false
  | .atFrame, .linear => (a.config.order.takeWhile (· != src)).any ready
  | .atFrame, .round => a.config.order.any (fun x => ready x && x != src && !a.roundSet.contains x)

/-- The burst that goes on, with its count so far (R139 step 1, R142). -/
def Arbiter.continuing (a : Arbiter) (ready : Source → Bool) : Option (Source × Nat) :=
  match a.grant with
  | none => none
  | some (src, count) =>
    if ready src && decide (count < a.config.burst) && !a.yields ready src then some (src, count) else none

/-- The source a new grant goes to and the round set after it (R140, R141). -/
def Arbiter.choose (a : Arbiter) (ready : Source → Bool) : Option (Source × List Source) :=
  match a.config.mode with
  | .linear => (a.config.order.find? ready).map (fun x => (x, a.roundSet))
  | .round =>
    match a.config.order.find? (fun x => ready x && !a.roundSet.contains x) with
    | some x => some (x, a.roundSet ++ [x])
    | none => (a.config.order.find? ready).map (fun x => (x, [x]))

/-- The response frame of an entry begins: the entry leaves its source queue and goes SENDING, and the credit field takes
the free count, which becomes the last-advertised credit (R41, R145, R175). -/
def State.beginResponse (s : State) (i : EntryId) : State :=
  let e := s.entry i
  let credit := s.rx.freeSlots
  let s := s.setEntry i { e with state := if e.state = .complete then .sending else e.state }
  { s with
    rx := { s.rx with advertised := credit }
    tx := some { what := .response i, bytes := (e.responseFrame credit).characters } }

/-- The frame of a notice begins: it takes the sequence number, the LOST flag, which is cleared, and the credit (R158,
R175). -/
def State.beginNotice (s : State) (x : Notice) (rest : List Notice) : State :=
  let credit := s.rx.freeSlots
  let n := s.notices
  { s with
    notices := { queue := rest, lost := false, sequence := n.sequence + 1#8 }
    rx := { s.rx with advertised := credit }
    tx := some { what := .notice, bytes := (x.frame n.sequence n.lost credit).characters } }

/-- The head frame of a source begins on TTXD and leaves its queue (R145). -/
def State.beginFrame (s : State) (src : Source) : State :=
  match src with
  | .branch b =>
    match Table.get s.arbiter.branchQueues b with
    | [] => s
    | i :: rest =>
      (s.setArbiter { s.arbiter with branchQueues := Table.set s.arbiter.branchQueues b rest }).beginResponse i
  | .ctl =>
    match s.arbiter.ctlQueue with
    | [] => s
    | i :: rest => (s.setArbiter { s.arbiter with ctlQueue := rest }).beginResponse i
  | .ntc =>
    match s.notices.queue with
    | [] => s
    | x :: rest => s.beginNotice x rest

/-- A decision of the arbiter over the sources it sees ready (R139): the burst goes on, or a new grant is made, or TTXD
becomes idle. -/
def State.arbitrate (s : State) (ready : Source → Bool) : State :=
  let a := s.arbiter.sync
  match a.continuing ready with
  | some (src, count) => (s.setArbiter { a with grant := some (src, count + 1) }).beginFrame src
  | none =>
    match a.choose ready with
    | some (src, roundSet) =>
      (s.setArbiter { a with grant := some (src, 1), roundSet := roundSet }).beginFrame src
    | none => s.setArbiter { a with grant := none }

/-- One consequence of a release is taken, if it is due (R18, R45). -/
def State.consequence (s : State) : Consequence → State
  | .drain => s.drain
  | .head => s.take (fun _ => true)

/-- The release of an entry has made a drain or the taking of a head due: a free choice says what of it is taken before the
decision at this end of a frame (R146, R138; log entry 32); the rest is taken after it, by its own command. -/
def State.beforeDecision (s : State) : State :=
  if s.drainDue || s.headReady then
    (Config.beforeDecision s.freeCount).foldl State.consequence { s with freeCount := s.freeCount + 1 }
  else s

/-- The last byte of a frame leaves TTXD (R146): the entry of a response goes FREE, or the reset its RESET asked for takes
effect (R186), and the arbiter decides on the state after it. What the release makes due may come before that decision: log
entry 32. -/
def State.endFrame (s : State) (straps : RateCode) : State :=
  if s.stopped then s
  else
    match s.tx with
    | none => s
    | some frame =>
      let s := { s with tx := none }
      let s :=
        match frame.what with
        | .notice => s
        | .response i =>
          match (s.entry i).scope with
          | some scope => s.takeEffect scope straps
          | none => (s.freeEntry i).beforeDecision
      s.arbitrate s.sourceReady

/-- The source whose becoming ready on an idle TTXD is taken first: a free choice where several are ready (R138; log
entry 32). -/
def State.firstReady (s : State) : Option Source :=
  let l := Source.all.filter s.sourceReady
  l[Config.firstReady s.freeCount % l.length]?

/-- A source becomes ready while TTXD is idle: a decision (R137). Of several, the first causes a decision made without the
others, which then wait for the end of its frame (R138). -/
def State.grantIdle (s : State) : State :=
  if s.grantDue then
    match Source.all.filter s.sourceReady with
    | [] => s
    | [src] => s.arbitrate (· == src)
    | _ => { s with freeCount := s.freeCount + 1 }.arbitrate (fun x => s.firstReady == some x)
  else s

/-! ## The commands -/

/-- RECEIVE_CHARACTER (R169). -/
def execReceiveCharacter (value : Byte) (s : State) : Host.Outcome State Fault Refusal :=
  .next (s.goodCharacter value)

/-- FRAME_RECEIVED (R170): the good character it names is the second CRC character. -/
def execFrameReceived (value : Byte) (s : State) : Host.Outcome State Fault Refusal :=
  .next (s.goodCharacter value)

/-- CHARACTER_ERROR (R165). -/
def execCharacterError (s : State) : Host.Outcome State Fault Refusal := .next s.badCharacter

/-- GAP_TIMEOUT (R171). -/
def execGapTimeout (s : State) : Host.Outcome State Fault Refusal := .next s.expireGap

/-- BREAK_START (R177). -/
def execBreakStart (s : State) : Host.Outcome State Fault Refusal := .next s.enterBreak

/-- BREAK_END (R178). -/
def execBreakEnd (s : State) : Host.Outcome State Fault Refusal := .next (s.riseToMarking true)

/-- START_OF_CHARACTER (R171). -/
def execStartOfCharacter (falseStart : Bool) (s : State) : Host.Outcome State Fault Refusal :=
  .next (s.fall falseStart)

/-- LINE_RETURNS_TO_MARKING (R168). -/
def execLineReturnsToMarking (s : State) : Host.Outcome State Fault Refusal :=
  .next (s.riseToMarking false)

/-- FRAME_END (R146). -/
def execFrameEnd (straps : RateCode) (s : State) : Host.Outcome State Fault Refusal :=
  .next (s.endFrame straps)

/-- SOURCE_READY_IDLE (R137). -/
def execSourceReadyIdle (s : State) : Host.Outcome State Fault Refusal := .next s.grantIdle

end Sys2Proof.Machine
end

