-- ==== Sys2Proof/Machine/Dispatch.lean ====
section
/-! DEFINITION. The meaning of every command: one arm per constructor of Instr, one direct call of its meaning. -/

namespace Sys2Proof.Machine

def exec (i : Instr) (s : State) : Host.Outcome State Fault Refusal :=
  match i with
  | .receiveCharacter value => Sys2Proof.Machine.execReceiveCharacter value s
  | .frameReceived value => Sys2Proof.Machine.execFrameReceived value s
  | .characterError => Sys2Proof.Machine.execCharacterError s
  | .gapTimeout => Sys2Proof.Machine.execGapTimeout s
  | .breakStart => Sys2Proof.Machine.execBreakStart s
  | .breakEnd => Sys2Proof.Machine.execBreakEnd s
  | .read => Sys2Proof.Machine.execRead s
  | .write => Sys2Proof.Machine.execWrite s
  | .writePosted => Sys2Proof.Machine.execWritePosted s
  | .watch => Sys2Proof.Machine.execWatch s
  | .cancel => Sys2Proof.Machine.execCancel s
  | .identify => Sys2Proof.Machine.execIdentify s
  | .getStatus => Sys2Proof.Machine.execGetStatus s
  | .stageRoute => Sys2Proof.Machine.execStageRoute s
  | .readRoute => Sys2Proof.Machine.execReadRoute s
  | .commitImmediate => Sys2Proof.Machine.execCommitImmediate s
  | .commitQuiesce => Sys2Proof.Machine.execCommitQuiesce s
  | .discard => Sys2Proof.Machine.execDiscard s
  | .setBranchEnable => Sys2Proof.Machine.execSetBranchEnable s
  | .setBranchDisable => Sys2Proof.Machine.execSetBranchDisable s
  | .getBranch => Sys2Proof.Machine.execGetBranch s
  | .setArbiter => Sys2Proof.Machine.execSetArbiter s
  | .resetSoft => Sys2Proof.Machine.execResetSoft s
  | .resetFull => Sys2Proof.Machine.execResetFull s
  | .unknownKind => Sys2Proof.Machine.execUnknownKind s
  | .engineTakeItem b bck bda => Sys2Proof.Machine.execEngineTakeItem b bck bda s
  | .exchangeEnd branch answer bck bda => Sys2Proof.Machine.execExchangeEnd branch answer bck bda s
  | .holdTimeout b => Sys2Proof.Machine.execHoldTimeout b s
  | .retryTimerExpiry b bck bda => Sys2Proof.Machine.execRetryTimerExpiry b bck bda s
  | .recoveryEnd b bck bda => Sys2Proof.Machine.execRecoveryEnd b bck bda s
  | .recoveryTimerExpiry b => Sys2Proof.Machine.execRecoveryTimerExpiry b s
  | .periodicRecoveryEnd b bck bda => Sys2Proof.Machine.execPeriodicRecoveryEnd b bck bda s
  | .watchTimerExpiry e => Sys2Proof.Machine.execWatchTimerExpiry e s
  | .quiesceDrain => Sys2Proof.Machine.execQuiesceDrain s
  | .quiesceTimeout => Sys2Proof.Machine.execQuiesceTimeout s
  | .frameEnd straps => Sys2Proof.Machine.execFrameEnd straps s
  | .sourceReadyIdle => Sys2Proof.Machine.execSourceReadyIdle s
  | .powerFail => Sys2Proof.Machine.execPowerFail s
  | .powerStable straps => Sys2Proof.Machine.execPowerStable straps s
  | .rstnAssert => Sys2Proof.Machine.execRstnAssert s
  | .rstnRelease straps => Sys2Proof.Machine.execRstnRelease straps s
  | .startOfCharacter falseStart => Sys2Proof.Machine.execStartOfCharacter falseStart s
  | .lineReturnsToMarking => Sys2Proof.Machine.execLineReturnsToMarking s
  | .resetClosingMarkEnd b => Sys2Proof.Machine.execResetClosingMarkEnd b s

end Sys2Proof.Machine
end

