-- ==== Sys2Proof/Machine/Time.lean ====
section
/-! DEFINITION. The passing of time: what a step does on an empty queue. The table of commands has a row for each timer's
running out and none for the time that passes before it; DESIGN CHOICE: one time unit passes in a step that finds no command,
while no happening is due that the manual lets no time pass before. -/

namespace Sys2Proof.Machine

/-- One time unit less on an engine's running timers (R75). -/
def Engine.elapse (g : Engine) : Engine :=
  { g with retryTimer := g.retryTimer.map (· - 1), recoveryTimer := g.recoveryTimer.map (· - 1) }

/-- One time unit less on every running timer: gap and spacing (R168), the pending commit (R3), retry and recovery timers
(R75), watch timers (R102). What came together with a reset (R188) is past. -/
def State.elapse (s : State) : State :=
  { s with
    rx := { s.rx with gap := s.rx.gap.map (· - 1), spacing := s.rx.spacing.map (· - 1), breakEnding := false }
    routes :=
      { s.routes with
        pendingCommit := s.routes.pendingCommit.map (fun p => { p with remaining := p.remaining - 1 }) }
    engines := Table.map Engine.elapse s.engines
    timers := s.timers.map (fun t => { t with remaining := t.remaining - 1 }) }

/-- What a step does on an empty queue: time waits while the part is stopped and runs no timer (R189), while a happening is
due at once, and while a timer is in its last unit, whose end is the command that names it. -/
def State.tick (s : State) : State :=
  if s.stopped || s.immediate || s.timerDue then s else s.elapse

end Sys2Proof.Machine
end

