-- ==== Sys2Proof/Machine/Line.lean ====
section
/-! DEFINITION. What the bytes of the state are on the lines: the bits of a character on TRXD and TTXD (R164), what sampling
one gives (R165), what the FH416 drives on BCK and BDA during an exchange, a recovery sequence and a mark (R65, R67 to R71, R82),
and the cells it takes from BDA (R65, R68). These are functions of the state; the bit times themselves are not state (log entry 18). -/

namespace Sys2Proof.Machine

/-! ## The trunk -/

/-- The level of a data bit: a 1 is at marking (R164, 11.6). -/
def bitLevel (bit : Bool) : Level := if bit then .marking else .spacing

/-- The ten bits of a character: the start bit at spacing, eight data bits least significant first, the stop bit at marking, and
no parity bit (R164). -/
def characterLevels (value : Byte) : List Level :=
  .spacing :: ((List.range 8).map (fun k => bitLevel (value.getLsbD k)) ++ [.marking])

/-- The bits of the frame in transmission, one level for each bit period (R164, R166). -/
def Sending.levels (x : Sending) : List Level := x.bytes.flatMap characterLevels

/-- The level of TTXD in the `k`th bit period after the frame in transmission began; an idle line is at marking (R164). -/
def State.ttxd (s : State) (k : Nat) : Level := ((s.tx.map Sending.levels).getD [])[k]?.getD .marking

/-- What the receiver makes of a fall of TRXD (R165). -/
inductive Sampled where
  | falseStart
  | good (value : Byte)
  | badStop
  deriving DecidableEq, Repr

/-- The value of data bits received least significant first (R164). -/
def valueOfLevels (data : List Level) : Byte :=
  data.foldr (fun level acc => (acc <<< 1) ||| (if level = .marking then 1#8 else 0#8)) 0#8

/-- The samples of a character: at half a bit period, in the middle of each data bit, and at the stop bit (R165). -/
def sampleCharacter (start : Level) (data : List Level) (stop : Level) : Sampled :=
  match start, stop with
  | .marking, _ => .falseStart
  | .spacing, .marking => .good (valueOfLevels data)
  | .spacing, .spacing => .badStop

/-- The commands that the samples stand for: the fall, and the end of the character (R165). For the second CRC character of a
frame FRAME_RECEIVED names the same happening (log entry 13). -/
def Sampled.commands : Sampled → List Instr
  | .falseStart => [.startOfCharacter true]
  | .good value => [.startOfCharacter false, .receiveCharacter value]
  | .badStop => [.startOfCharacter false, .characterError]

/-! ## The branches -/

/-- What the FH416 does to one of the two open-drain lines of a branch (4.1). -/
inductive Pull where
  | low | released
  deriving DecidableEq, Repr

/-- What the FH416 does to BCK and BDA for half a bit period. -/
structure Drive where
  bck : Pull
  bda : Pull
  deriving DecidableEq, Repr

/-- A bit that the FH416 sends: BCK low for the first half of the period; BDA low for a 0 and released for a 1 (R65). -/
def sentBit (bit : Bool) : List Drive :=
  let bda := if bit then Pull.released else .low
  [⟨.low, bda⟩, ⟨.released, bda⟩]

/-- A bit period in which BDA is released: the presence slot, the turnaround, a bit of the target, a pulse of a recovery (R65,
R68 to R70, R82). -/
def releasedBit : List Drive := [⟨.low, .released⟩, ⟨.released, .released⟩]

/-- `n` bit periods in which BDA is released. -/
def releasedBits (n : Nat) : List Drive := (List.replicate n releasedBit).flatten

/-- The level of an open-drain line, high as true: low while either side drives it low; released by both sides it reads high
(R65). -/
def lineHigh (fh416 target : Pull) : Bool := fh416 == .released && target == .released

/-- The bit that the FH416 takes from a target: the level of BDA as BCK rises, the FH416 having released it (R65). -/
def receivedBit (target : Pull) : Bool := lineHigh .released target

/-- The cell that eight bits make, most significant first (R65). -/
def cellOfBits (bits : List Bool) : Byte :=
  bits.foldl (fun acc bit => (acc <<< 1) ||| (if bit then 1#8 else 0#8)) 0#8

/-- The cells that the bits taken one after the other make; fewer than eight bits make none (R65). -/
def cellsOfBits : List Bool → List Byte
  | a :: b :: c :: d :: e :: f :: g :: h :: rest => cellOfBits [a, b, c, d, e, f, g, h] :: cellsOfBits rest
  | _ => []

/-- What an exchange takes from a target, by what the target does to BDA as BCK rises in the presence slot and in each bit of its
cells, the turnaround of a READ not among them: a device that leaves BDA high in the presence slot is absent, a present one sends
cells (R65, R68 to R70). This is the operand of EXCHANGE_END. -/
def answerOnLine (presence : Pull) (bits : List Pull) : TargetAnswer :=
  if receivedBit presence then .absent else .cells (cellsOfBits (bits.map receivedBit))

/-- The bits of a cell, most significant first (R65). -/
def cellBits (cell : Byte) : List Bool := (List.range 8).map cell.getMsbD

/-- A cell that the FH416 sends (R65). -/
def cellDrive (cell : Byte) : List Drive := (cellBits cell).flatMap sentBit

/-- The opening mark: BDA falls, BCK falls half a bit period later, and both stay low through the second period (R67). -/
def openingMark : List Drive := [⟨.released, .low⟩, ⟨.low, .low⟩, ⟨.low, .low⟩, ⟨.low, .low⟩]

/-- The closing mark: both low for a bit period, then BCK released with BDA low for another (R71). -/
def closingMark : List Drive := [⟨.low, .low⟩, ⟨.low, .low⟩, ⟨.released, .low⟩, ⟨.released, .low⟩]

/-- The bit periods after the last cell sent in which the target answers: in a READ the turnaround, the data cells and the check
cell, in a WRITE the status cell (R69, R70). The header and the count of the exchange say which and how many. -/
def answerBits (header count : Byte) : Nat := if header &&& 7#8 = 1#8 then 1 + 8 * (count.toNat + 1) else 8

/-- An exchange that runs to its closing mark, its holds apart: the cells go out as the FH416 sends them, all of them to a present
device and the header alone to an absent one (R67 to R71). -/
def exchangeDrive (present : Bool) : List Byte → List Drive
  | header :: register :: count :: rest =>
    openingMark ++ cellDrive header ++ releasedBit ++
      (if present then
        (register :: count :: rest).flatMap cellDrive ++ releasedBits (answerBits header count)
      else []) ++
      closingMark
  | _ => []

/-- A recovery sequence: 16 pulses and a closing mark (R82). -/
def recoveryDrive : List Drive := releasedBits 16 ++ closingMark

/-- What the FH416 drives on a branch, from the beginning of what stands in `wire` to its end; both lines are released outside it
(R65, R71, R82, R93). -/
def Wire.drive (present : Bool) : Wire → List Drive
  | .released => []
  | .exchange cells => exchangeDrive present cells
  | .recovery _ | .attempt => recoveryDrive
  | .closingMark => Machine.closingMark

end Sys2Proof.Machine
end

