-- ==== Sys2Proof/Safety.lean ====
section
/-! DEFINITION. The words the statements are written in: runs of several commands, the taking of the head, the records that
admission writes, and the invariants of the part: the bounds of the queues, the soundness of the outstanding table, of the
route table, of the receiver, of the engines and of the arbiter. -/

namespace Sys2Proof

/-- The two supply conditions and their ends (R189). -/
def Instr.isSupply : Instr → Bool
  | .powerFail | .powerStable _ | .rstnAssert | .rstnRelease _ => true
  | _ => false

end Sys2Proof

namespace Sys2Proof.Machine

/-! ## Runs -/

/-- Several commands one after the other, up to the first that has no next state. -/
def execAll : List Instr → State → Host.Outcome State Fault Refusal
  | [], s => .next s
  | c :: rest, s =>
    match exec c s with
    | .next t => execAll rest t
    | .fault f => .fault f
    | .refused r => .refused r

/-- The commands by which a frame arrives on TRXD with two given CRC characters (R166, R170). -/
def Frame.arrival (fr : Frame) (high low : Byte) : List Instr :=
  (startByte :: (fr.covered ++ [high])).map Instr.receiveCharacter ++ [.frameReceived low]

/-! ## Taking the head -/

/-- The command that takes a frame at the head (R44): the row of its kind code, and for the kinds with two rows the row of its
mode, enabled or scope byte. -/
def Frame.command (fr : Frame) : Instr :=
  match Kind.ofCode fr.kind with
  | none => .unknownKind
  | some .read => .read
  | some .write => .write
  | some .writePosted => .writePosted
  | some .watch => .watch
  | some .cancel => .cancel
  | some .identify => .identify
  | some .getStatus => .getStatus
  | some .stageRoute => .stageRoute
  | some .readRoute => .readRoute
  | some .commit => if fr.payload[2]? = some 1#8 then .commitQuiesce else .commitImmediate
  | some .discard => .discard
  | some .setBranch => if fr.payload[1]? = some 0#8 then .setBranchDisable else .setBranchEnable
  | some .getBranch => .getBranch
  | some .setArbiter => .setArbiter
  | some .reset => if fr.payload[0]? = some 1#8 then .resetFull else .resetSoft

/-- A frame stands at the head with `rest` behind it, every condition for taking it holds (R45), its tag belongs to no entry in
use (R55), and entry `i` is the lowest-indexed FREE one (R32). -/
structure State.Takes (s : State) (fr : Frame) (rest : List Frame) (i : EntryId) : Prop where
  head : s.rx.inbound = fr :: rest
  ready : s.admissible fr.kind = true
  fresh : s.tagInUse fr.tag = false
  free : s.lowestFree = some i

/-- The head has left the inbound queue and its tag is the last-admitted tag (R44, R47). -/
def State.headGone (s : State) (fr : Frame) (rest : List Frame) : State :=
  s.setRx { s.rx with inbound := rest, lastTag := some fr.tag }

/-- The head has left the inbound queue and the rise of the free count has been tested for CREDIT (R176). -/
def State.taken (s : State) (fr : Frame) (rest : List Frame) : State :=
  if (s.headGone fr rest).rx.creditDue then
    { (s.headGone fr rest).hand .credit with freeCount := s.freeCount + 1 }
  else s.headGone fr rest

/-- The notice unit after taking the head handed a notice of its own beside the CREDIT that it may cause, in either order
(R160). -/
def State.noticed (s : State) (fr : Frame) (rest : List Frame) (x : Notice) (n : NoticeUnit) : Prop :=
  if (s.headGone fr rest).rx.creditDue then
    n = (s.notices.hand .credit).hand x ∨ n = (s.notices.hand x).hand .credit
  else n = s.notices.hand x

/-- The state after taking the head did `act`, which may hand notices, beside the CREDIT that its taking may cause: the CREDIT
is handed before all of it or after all of it (R160; log entry 12). -/
def State.didTaking (s : State) (fr : Frame) (rest : List Frame) (act : State → State) (t : State) : Prop :=
  t = act (s.taken fr rest) ∨
    ((s.headGone fr rest).rx.creditDue = true ∧
      t = (act { s.headGone fr rest with freeCount := s.freeCount + 1 }).hand .credit)

/-- The record that allocation makes of a frame, completed at admission on CTL unless a field is said otherwise (R26, R50). -/
def Frame.record (fr : Frame) (generation : Half) : Entry :=
  { Entry.free with
    state := .complete, cls := classOf fr.kind, kind := fr.kind, tag := fr.tag,
    posted := fr.kind == 0x03#8, generation := generation }

/-- Entry `i` leaves FREE with a record, and the count of its class rises by 1 (R24). -/
def State.enter (s : State) (i : EntryId) (e : Entry) : State :=
  { s with table := { s.table with entries := Table.set s.table.entries i e }.raise e.cls }

/-- Entry `i` joins the tail of CTL (R31). -/
def State.joinCtl (s : State) (i : EntryId) : State :=
  s.setArbiter { s.arbiter with ctlQueue := s.arbiter.ctlQueue ++ [i] }

/-- Entry `i` joins the tail of the source of a branch (R31). -/
def State.joinBranch (s : State) (b : BranchId) (i : EntryId) : State :=
  s.setArbiter
    { s.arbiter with
      branchQueues := Table.set s.arbiter.branchQueues b (Table.get s.arbiter.branchQueues b ++ [i]) }

/-- A frame is admitted into entry `i` and answered at once on CTL with a status and a reply (R60, R62). -/
def State.answered (s : State) (fr : Frame) (i : EntryId) (status : Status) (reply : Reply) : State :=
  (s.enter i { fr.record s.routes.generation with status := some status, reply := reply }).joinCtl i

/-! ## Invariants -/

/-- How many notices of the queue are of a type. -/
def NoticeUnit.countOf (n : NoticeUnit) (code : Byte) : Nat := n.queue.countP (fun x => x.code == code)

/-- The notice queue holds at most 8 notices, and at most one each of CREDIT, OVERRUN and LINK_ERROR (R154). -/
def NoticeUnit.Sound (n : NoticeUnit) : Prop :=
  n.queue.length ≤ 8 ∧ n.countOf 0x03#8 ≤ 1 ∧ n.countOf 0x04#8 ≤ 1 ∧ n.countOf 0x05#8 ≤ 1

/-- The number of entries in use of a class (R24). -/
def State.inUseOf (s : State) (cls : RequestClass) : Nat :=
  (List.finRange 16).countP (fun i => (s.entry i).inUse && (s.entry i).cls == cls)

/-- Tags in use are distinct (R30), the two counts agree with the entries, and at most 14 entries are DATA class (R24). -/
structure State.TableSound (s : State) : Prop where
  tags : ∀ i j, (s.entry i).inUse = true → (s.entry j).inUse = true → (s.entry i).tag = (s.entry j).tag → i = j
  data : s.table.dataInUse = s.inUseOf .data
  control : s.table.controlInUse = s.inUseOf .control
  share : s.table.dataInUse ≤ 14

/-- Slot `j` is a lower-indexed slot that is not UNUSED and whose window shares an address with that of slot `i` (R9). -/
def Bank.Meets (bank : Bank) (i j : SlotId) : Prop :=
  let r := Table.get bank i
  let q := Table.get bank j
  j < i ∧ r.kind ≠ .unused ∧ q.kind ≠ .unused ∧
    ∃ a, r.base.toNat ≤ a ∧ a ≤ r.limit.toNat ∧ q.base.toNat ≤ a ∧ a ≤ q.limit.toNat

/-- The slot fails a condition of the table of R9; an UNUSED slot is tested for MEMBER alone (R10). -/
def Bank.Fails (bank : Bank) (i : SlotId) (reason : ValidityReason) : Prop :=
  let r := Table.get bank i
  match reason with
  | .order => r.kind ≠ .unused ∧ r.limit.toNat < r.base.toNat
  | .size => r.kind ≠ .unused ∧ r.base.toNat + 255 < r.limit.toNat
  | .overlap => ∃ j, bank.Meets i j
  | .member =>
    (r.kind = .direct ∧ r.members.length ≠ 1) ∨ (r.kind = .group ∧ (r.members = [] ∨ 4 < r.members.length)) ∨
      ((r.kind = .deny ∨ r.kind = .unused) ∧ r.members ≠ []) ∨
      (∃ m ∈ r.members, m.device.toNat < 1 ∨ 30 < m.device.toNat ∨ 3 < m.branch.toNat) ∨
      (r.kind = .group ∧ ¬ (r.members.map (·.branch)).Nodup)
  | .register => r.kind ≠ .unused ∧ ∃ m ∈ r.members, 255 < m.base.toNat + (r.limit.toNat - r.base.toNat)
  | .rights =>
    (r.kind = .group ∧ (r.rights.read = true ∨ r.rights.watch = true)) ∨
      (r.kind = .deny ∧ r.rights ≠ ⟨false, false, false⟩)

/-- The active bank meets the validity conditions, and so does the staging bank while a commit waits (R15). -/
def RouteUnit.Sound (r : RouteUnit) : Prop :=
  r.active.valid = true ∧ (r.pendingCommit.isSome = true → r.staging.valid = true)

/-- The partial frame and the gap timer go with the receive state (R168), and the inbound queue and the last-advertised credit
keep their bounds (R173, R175). -/
structure Receiver.Sound (rx : Receiver) : Prop where
  hunt : rx.state = .hunt ∨ rx.state = .inBreak → rx.building = none ∧ rx.gap = none
  length : rx.state = .length → rx.building = some ⟨none, [], []⟩ ∧ rx.gap.isSome = true
  body : rx.state = .body →
    rx.gap.isSome = true ∧ ∃ l body, rx.building = some ⟨some l, body, []⟩ ∧ 2 ≤ l ∧ l ≤ 40 ∧ body.length < l
  check : rx.state = .check →
    rx.gap.isSome = true ∧
      ∃ l body crc, rx.building = some ⟨some l, body, crc⟩ ∧ 2 ≤ l ∧ l ≤ 40 ∧ body.length = l ∧ crc.length ≤ 1
  inbound : rx.inbound.length ≤ 8
  credit : rx.advertised ≤ 8

/-- The receiver is sound. A break that a reset has just cut off leaves it in HUNT waiting for marking (R180, R188; the field
breakEnding is log entry 14), and while the part is not stopped TRXD is at spacing in BREAK (R177). -/
structure State.ReceiverSound (s : State) : Prop where
  rx : s.rx.Sound
  breakEnding : s.rx.breakEnding = true → s.rx.state = .hunt ∧ s.rx.waiting = true
  inBreak : s.stopped = false → s.rx.state = .inBreak → s.trxd = .spacing

/-- The in-service item, the disable-pending flag and the two timers of an engine go with its state, and its configuration lies
in its range (R74, R75). -/
structure Engine.Sound (g : Engine) : Prop where
  served : g.state = .retryWait → g.inService.isSome = true
  unserved : g.state = .disabled ∨ g.state = .idle ∨ g.state = .faulted → g.inService = none
  flag : g.disablePending = true → g.state = .exchange ∨ g.state = .recovery
  retry : g.retryTimer.isSome = true ↔ g.state = .retryWait
  recovery : g.recoveryTimer.isSome = true → g.state = .faulted
  attempt : g.wire = .attempt → g.state = .faulted ∧ g.recoveryTimer = none
  config : g.config.inRange = true

/-- What the FH416 does on BCK and BDA goes with the engine state, and a configuration copy is held exactly during an exchange,
a recovery sequence or a periodic attempt (R74, R75, R87, R93, R94). In EXCHANGE and RECOVERY the wire may show the closing
mark of a FULL reset, with no item (log entry 9). -/
structure Engine.WireSound (g : Engine) : Prop where
  exchange : g.state = .exchange →
    (g.wire = .closingMark ∧ g.inService = none) ∨ ((∃ cells, g.wire = .exchange cells) ∧ g.inService.isSome = true)
  recovery : g.state = .recovery →
    (g.wire = .closingMark ∧ g.inService = none) ∨
      ∃ cause, g.wire = .recovery cause ∧ (cause = .softReset → g.inService = none)
  rest : g.state = .disabled ∨ g.state = .idle → g.wire = .released ∨ g.wire = .closingMark
  retryWait : g.state = .retryWait → g.wire = .released
  faulted : g.state = .faulted →
    (g.wire = .attempt ∧ g.recoveryTimer = none) ∨ (g.wire = .released ∧ g.recoveryTimer.isSome = true)
  copy : g.copy.isSome = true ↔
    (∃ cells, g.wire = .exchange cells) ∨ (∃ cause, g.wire = .recovery cause) ∨ g.wire = .attempt

/-- Every engine is sound, and while the part is not stopped so is every wire: a stopped part has released them all (R189). -/
structure State.EnginesSound (s : State) : Prop where
  engine : ∀ b, (s.engine b).Sound
  wire : s.stopped = false → ∀ b, (s.engine b).WireSound

/-- The source queue that entries of a source join (R31, R135); no entry joins NTC, whose queue holds notices. -/
def State.sourceQueue (s : State) : Source → List EntryId
  | .branch b => Table.get s.arbiter.branchQueues b
  | .ctl => s.arbiter.ctlQueue
  | .ntc => []

/-- Where the work of an entry stands. An item of a branch queue refers to a PENDING member of a QUEUED or ACTIVE entry on that
branch, one item for an entry; the item in service to an IN_SERVICE member of an ACTIVE entry; the members of an entry lie on
distinct branches (R76, R77). An entry has a timer, and only one, exactly while it is WAITING, with its one member PENDING; a
watch has one member (R95, R102, R103). An entry is HELD exactly while it is the one of the pending commit (R17, R36). A
COMPLETE entry stands exactly once in the queue of its own source, and no other entry stands in any (R31, R135). The entry
whose response is on TTXD is SENDING (R41). -/
structure State.Placed (s : State) : Prop where
  queued : ∀ b it, it ∈ (s.engine b).queue →
    ((s.entry it.entry).state = .queued ∨ (s.entry it.entry).state = .active) ∧
      ∃ m, s.member it = some m ∧ m.branch = b ∧ m.state = .pending
  queuedOnce : ∀ b, ((s.engine b).queue.map (·.entry)).Nodup
  served : ∀ b it, (s.engine b).inService = some it →
    (s.entry it.entry).state = .active ∧ ∃ m, s.member it = some m ∧ m.branch = b ∧ m.state = .inService
  branches : ∀ i, ((s.entry i).members.map (·.branch)).Nodup
  watching : ∀ i, (s.entry i).watch.isSome = true → (s.entry i).members.length ≤ 1
  timer : ∀ i, i ∈ s.timers.map (·.entry) ↔ (s.entry i).state = .waiting
  timerOnce : (s.timers.map (·.entry)).Nodup
  waiting : ∀ i, (s.entry i).state = .waiting → ∃ m, (s.entry i).members = [m] ∧ m.state = .pending
  held : ∀ i, (s.entry i).state = .held ↔ s.routes.pendingCommit.map (·.entry) = some i
  source : ∀ i src, i ∈ s.sourceQueue src ↔ (s.entry i).state = .complete ∧ (s.entry i).source = src
  sourceOnce : ∀ src, (s.sourceQueue src).Nodup
  answered : ∀ i, (s.entry i).source ≠ .ntc
  sending : ∀ i f, s.tx = some f → f.what = .response i → (s.entry i).state = .sending

/-- The watch timers stand in order of expiry, earliest at the head (R102). -/
def State.TimersSorted (s : State) : Prop := s.timers.Pairwise (fun t u => t.remaining ≤ u.remaining)

/-- A legal configuration (R136), and, while the part is not stopped, a grant present only while a frame is on TTXD (R136). -/
structure State.ArbiterSound (s : State) : Prop where
  legal : s.arbiter.config.legal = true
  grant : s.stopped = false → s.arbiter.grant.isSome = true → s.tx.isSome = true

end Sys2Proof.Machine
end

