-- ==== Sys2Proof/Certificates/Slice0/Obligations.lean ====
section
/-! DEFINITION. The statements for the provers, in the order of OBLIGATIONS.json. Each docstring names the rules of spec/ it
draws on. A statement that fixes the whole next state says its frame with it: what the equation does not name is unchanged. -/

open Sys2Proof Sys2Proof.Machine

/-! ## The machine -/

/-- A step takes the command at the front of the queue and answers what `exec` answers on the state with the queue's rest. The
queue of commands is the model's choice: log entries 5, 25 and 32. -/
def Obligations.StepRunsTheFrontCommand : Prop :=
  ∀ (c : Instr) (s : State), step { s with pending := c :: s.pending } = exec c s

/-- A step on an empty queue lets one time unit pass: every running timer falls by one, the moment of a reset is past, and
nothing else changes. No time passes while the part is stopped, while a happening is due at once, or while a timer is in its
last unit. The model's choice: log entries 1, 2 and 14. -/
def Obligations.EmptyQueueLetsTimePass : Prop :=
  ∀ s : State, s.pending = [] →
    ((s.stopped = true ∨ s.immediate = true ∨ s.timerDue = true) → step s = .next s) ∧
    (s.stopped = false → s.immediate = false → s.timerDue = false →
      step s = .next
        { s with
          rx := { s.rx with gap := s.rx.gap.map (· - 1), spacing := s.rx.spacing.map (· - 1), breakEnding := false }
          routes :=
            { s.routes with
              pendingCommit := s.routes.pendingCommit.map (fun p => { p with remaining := p.remaining - 1 }) }
          engines :=
            s.engines.map (fun g =>
              { g with retryTimer := g.retryTimer.map (· - 1), recoveryTimer := g.recoveryTimer.map (· - 1) })
          timers := s.timers.map (fun t => { t with remaining := t.remaining - 1 }) })

/-- Every command has a next state in every state, and none touches the queue of waiting commands. The model's choice:
log entries 4, 5 and 24. -/
def Obligations.EveryCommandCompletesAndKeepsTheQueue : Prop :=
  ∀ (c : Instr) (s : State), ∃ t, exec c s = .next t ∧ t.pending = s.pending

/-- While the power-on or the RSTn condition is present, no command but the beginnings and ends of the two conditions changes
anything besides the level of TRXD. R189 says that the state of a stopped part is not observable; that the model keeps every
block as it stood and follows TRXD alone is its choice: log entry 10. -/
def Obligations.StoppedPartDoesNothing : Prop :=
  ∀ (c : Instr) (s : State), s.stopped = true → c.isSupply = false →
    ∃ l, exec c s = .next { s with trxd := l }

/-- The active bank and the generation change only when a commit is performed, when a FULL reset takes effect, and at start-up
(R4, R5, R15). The end of a frame changes them for a FULL reset, or where the consequences of its release that are taken before
its decision (R146; log entry 32) perform a commit: with no commit pending and no COMMIT in the inbound queue they perform none.
-/
def Obligations.OnlyCommitsAndResetsChangeTheActiveBank : Prop :=
  ∀ (c : Instr) (s t : State), exec c s = .next t →
    c ≠ .commitImmediate → c ≠ .commitQuiesce → c ≠ .quiesceDrain → (∀ r, c ≠ .powerStable r ∧ c ≠ .rstnRelease r) →
    (∀ r i bytes, c = .frameEnd r → s.tx = some ⟨.response i, bytes⟩ →
      (s.entry i).scope ≠ some .full ∧
        ((s.entry i).scope = none → s.routes.pendingCommit = none ∧ ∀ fr ∈ s.rx.inbound, fr.kind ≠ 0x15#8)) →
    t.routes.active = s.routes.active ∧ t.routes.generation = s.routes.generation

/-- What happens at one engine changes that engine's state and the records of the entries it serves, and no other engine; the
trunk link, the route table, the halt flag and the arbiter's choices are not touched (Section 4). -/
def Obligations.EnginesActIndependently : Prop :=
  ∀ (s t : State) (b c : BranchId) (a : TargetAnswer) (p q : Bool), c ≠ b →
    ∀ x ∈ [Instr.engineTakeItem b p q, .exchangeEnd b a p q, .holdTimeout b, .retryTimerExpiry b p q,
        .recoveryEnd b p q, .recoveryTimerExpiry b, .periodicRecoveryEnd b p q, .resetClosingMarkEnd b],
      exec x s = .next t →
      t.engine c = s.engine c ∧ t.rx = s.rx ∧ t.trxd = s.trxd ∧ t.halt = s.halt ∧ t.routes = s.routes ∧
        t.tx = s.tx ∧ t.supply = s.supply ∧ t.straps = s.straps ∧ t.arbiter.config = s.arbiter.config ∧
        t.arbiter.grant = s.arbiter.grant ∧ t.arbiter.roundSet = s.arbiter.roundSet

/-! ## The trunk link -/

/-- Good characters in HUNT and LENGTH (R169). The gap timer restarted at the start of the character; what is left of it at the
character's end is the model's, log entry 13. -/
def Obligations.HuntAndLengthCharacters : Prop :=
  ∀ (s : State) (v : Byte), s.takesCharacters = true →
    let rx := { s.rx with inCharacter := false, spacing := none }
    let gap := some (gapUnitsAtCharacterEnd s.rx.rate)
    (s.rx.state = .hunt → v = 0xB5#8 →
      exec (.receiveCharacter v) s =
        .next { s with
          trxd := .marking
          rx := { rx with state := .length, building := some ⟨none, [], []⟩, gap := gap } }) ∧
    (s.rx.state = .hunt → v ≠ 0xB5#8 →
      exec (.receiveCharacter v) s = .next { s with trxd := .marking, rx := rx }) ∧
    (s.rx.state = .length → 2 ≤ v.toNat → v.toNat ≤ 40 →
      exec (.receiveCharacter v) s =
        .next { s with
          trxd := .marking
          rx := { rx with state := .body, building := some ⟨some v.toNat, [], []⟩, gap := gap } }) ∧
    (s.rx.state = .length → (v.toNat < 2 ∨ 40 < v.toNat) →
      exec (.receiveCharacter v) s =
        .next ({ s with
          trxd := .marking
          rx := { rx with state := .hunt, building := none, gap := none } }.hand (.linkError .length 1)))

/-- Good characters in BODY and CHECK, and the end of the second CRC character (R170, R173, R174). What is left of the gap timer
at a character's end is the model's, log entry 13. -/
def Obligations.BodyAndCheckCharacters : Prop :=
  ∀ (s : State) (v : Byte) (l : Nat) (body crc : List Byte), s.takesCharacters = true →
    s.rx.building = some ⟨some l, body, crc⟩ →
    let rx := { s.rx with inCharacter := false, spacing := none }
    let gap := some (gapUnitsAtCharacterEnd s.rx.rate)
    let done := { rx with state := .hunt, building := none, gap := none }
    let fr : Frame := { kind := body.getD 0 0#8, tag := body.getD 1 0#8, payload := body.drop 2 }
    (s.rx.state = .body → body.length + 1 < l →
      exec (.receiveCharacter v) s =
        .next { s with
          trxd := .marking
          rx := { rx with building := some ⟨some l, body ++ [v], crc⟩, gap := gap } }) ∧
    (s.rx.state = .body → body.length + 1 = l →
      exec (.receiveCharacter v) s =
        .next { s with
          trxd := .marking
          rx := { rx with state := .check, building := some ⟨some l, body ++ [v], crc⟩, gap := gap } }) ∧
    (s.rx.state = .check → crc = [] →
      exec (.receiveCharacter v) s =
        .next { s with
          trxd := .marking, rx := { rx with building := some ⟨some l, body, [v]⟩, gap := gap } }) ∧
    (∀ high, s.rx.state = .check → crc = [high] →
      exec (.frameReceived v) s =
        .next
          (if crc16 (Byte.ofCount l :: body) ≠ high ++ v then
            { s with trxd := .marking, rx := done }.hand (.linkError .crc 1)
          else if s.rx.inbound.length < 8 then
            { s with trxd := .marking, rx := { done with inbound := s.rx.inbound ++ [fr] } }
          else { s with trxd := .marking, rx := done }.hand (.overrun fr.tag 1)))

/-- A character error waits for marking and abandons a frame being received with LINK_ERROR CHAR; the running out of the gap
timer abandons it with LINK_ERROR GAP. A fall of TRXD from marking starts the spacing timer; it begins a character when the
receiver looks for a start bit and it is no false start, and restarts the gap timer of a frame being received. A return to
marking outside a break clears waiting for marking and stops the spacing timer. A character that a reset cut off is not
completed: its end only says where TRXD stands (R165, R168, R169, R171, R172, R187). That a false start leaves the gap timer
alone is log entry 15, the field inCharacter and the falls it shuts out log entry 16, the field cut log entry 23, the field
breakEnding, cleared at each fall and rise, log entry 14. -/
def Obligations.CharacterErrorsGapsAndLineFalls : Prop :=
  (∀ s : State,
     let error := { s.rx with inCharacter := false, waiting := true }
     let receiving := s.rx.state = .length ∨ s.rx.state = .body ∨ s.rx.state = .check
     (s.takesCharacters = true → s.rx.state = .hunt →
       exec .characterError s = .next { s with trxd := .spacing, rx := error }) ∧
     (s.takesCharacters = true → receiving →
       exec .characterError s =
         .next ({ s with
           trxd := .spacing
           rx := { error with state := .hunt, building := none, gap := none } }.hand (.linkError .char 1))) ∧
     (s.stopped = false → receiving →
       exec .gapTimeout s =
         .next ({ s with rx := { s.rx with state := .hunt, building := none, gap := none } }.hand
           (.linkError .gap 1)))) ∧
  (∀ s : State, s.stopped = false →
     let fallen := { s.rx with spacing := some (2 * characterUnits s.rx.rate), breakEnding := false }
     let begun := { fallen with inCharacter := true, cut := false }
     let risen := { s.rx with waiting := false, spacing := none, breakEnding := false }
     (∀ f, s.trxd = .marking →
       (f = true ∨ s.rx.inCharacter = true ∨ s.rx.waiting = true ∨ s.rx.state = .inBreak) →
       exec (.startOfCharacter f) s = .next { s with trxd := .spacing, rx := fallen }) ∧
     (s.trxd = .marking → s.rx.inCharacter = false → s.rx.waiting = false → s.rx.state = .hunt →
       exec (.startOfCharacter false) s = .next { s with trxd := .spacing, rx := begun }) ∧
     (s.trxd = .marking → s.rx.inCharacter = false → s.rx.waiting = false →
       (s.rx.state = .length ∨ s.rx.state = .body ∨ s.rx.state = .check) →
       exec (.startOfCharacter false) s =
         .next { s with trxd := .spacing, rx := { begun with gap := some (16 * characterUnits s.rx.rate) } }) ∧
     (s.rx.state ≠ .inBreak → exec .lineReturnsToMarking s = .next { s with trxd := .marking, rx := risen }) ∧
     (s.rx.cut = true → s.rx.state ≠ .inBreak →
       (∀ v, exec (.receiveCharacter v) s = .next { s with trxd := .marking, rx := { risen with cut := false } } ∧
         exec (.frameReceived v) s = .next { s with trxd := .marking, rx := { risen with cut := false } }) ∧
       exec .characterError s = .next { s with trxd := .spacing, rx := { s.rx with cut := false } }))

/-- A break discards the partial frame and the inbound queue, and hands CREDIT when the rise of the free count to 8 meets the
trigger; its end takes the receiver to HUNT and hands RESYNC with the last-admitted tag; nothing else changes (R177, R178).
When no frame stood in the queue, nothing rises and no CREDIT is handed: the model's choice, log entry 19. A break that was on
when a reset took effect at this moment hands its RESYNC when its end is taken after the reset; a later return to marking hands
none (R188; the field breakEnding is log entry 14). -/
def Obligations.BreakEmptiesTheQueueAndEndsWithResync : Prop :=
  (∀ s : State, s.stopped = false → s.rx.state ≠ .inBreak →
     let t := { s with
       trxd := .spacing
       rx := { s.rx with
         state := .inBreak, building := none, gap := none, spacing := none, inCharacter := false, cut := false,
         breakEnding := false, inbound := [] } }
     exec .breakStart s =
       .next (if s.rx.inbound ≠ [] ∧ s.rx.advertised ≤ 4 then t.hand .credit else t)) ∧
  (∀ s : State, s.stopped = false →
     let t := { s with
       trxd := .marking
       rx := { s.rx with state := .hunt, waiting := false, spacing := none, breakEnding := false } }
     (s.rx.state = .inBreak ∨ s.rx.breakEnding = true → exec .breakEnd s = .next (t.hand (.resync s.rx.lastTag))) ∧
     (s.rx.state = .hunt → exec .lineReturnsToMarking s = .next t))

/-- A frame sent whole from HUNT arrives: it joins the inbound queue as it was sent, or is discarded by overrun when eight
frames stand there; with any other CRC it is abandoned with LINK_ERROR CRC (R166, R167, R169, R170, R173, R174). The ends of
characters are given without their starts: log entry 13. -/
def Obligations.ReceiverDeliversEveryFrame : Prop :=
  ∀ (s : State) (fr : Frame) (high low : Byte), s.takesCharacters = true → s.rx.state = .hunt →
    fr.payload.length ≤ 38 →
    let done := { s.rx with inCharacter := false, spacing := none, building := none, gap := none }
    execAll (fr.arrival high low) s =
      .next
        (if high ++ low ≠ crc16 fr.covered then
          { s with trxd := .marking, rx := done }.hand (.linkError .crc 1)
        else if s.rx.inbound.length < 8 then
          { s with trxd := .marking, rx := { done with inbound := s.rx.inbound ++ [fr] } }
        else { s with trxd := .marking, rx := done }.hand (.overrun fr.tag 1))

/-! ## Notices -/

/-- A handed notice is merged into a queued one of its type when it is CREDIT, OVERRUN or LINK_ERROR, else appended while the
queue holds fewer than 8, else dropped with LOST set (R154, R155). -/
def Obligations.HandedNoticeIsMergedAppendedOrDropped : Prop :=
  ∀ n : NoticeUnit,
    (.credit ∈ n.queue → n.hand .credit = n) ∧
    (∀ pre post tag count tag' , n.queue = pre ++ .overrun tag count :: post →
      (∀ x ∈ pre, x.code ≠ 0x04#8) →
      n.hand (.overrun tag' 1) = { n with queue := pre ++ .overrun tag (min 255 (count + 1)) :: post }) ∧
    (∀ pre post reason count reason', n.queue = pre ++ .linkError reason count :: post →
      (∀ x ∈ pre, x.code ≠ 0x05#8) →
      n.hand (.linkError reason' 1) = { n with queue := pre ++ .linkError reason (min 255 (count + 1)) :: post }) ∧
    (∀ x : Notice, (x.code ∈ [0x03#8, 0x04#8, 0x05#8] → ∀ y ∈ n.queue, y.code ≠ x.code) →
      n.hand x =
        if n.queue.length < 8 then { n with queue := n.queue ++ [x] } else { n with lost := true })

/-! ## Encodings -/

/-- Every request within the ranges of R53, written by the layout of its kind, is read back as itself, whatever its tag, and
fits in a frame; and a frame that admission reads as a request is the frame of that request under its tag, byte for byte: no
field and no reserved bit is dropped, and no request out of range is ever read (12.3, 12.4, R52, R53, R192). -/
def Obligations.RequestsAndTheirFramesCorrespond : Prop :=
  (∀ (r : Request) (tag : Byte), r.wellFormed = true →
     (r.frame tag).request = some r ∧ (r.frame tag).payload.length ≤ 38) ∧
  (∀ (fr : Frame) (r : Request), fr.request = some r → r.wellFormed = true ∧ r.frame fr.tag = fr)

/-! ## The route table -/

/-- In a valid bank, the slot whose window holds the first address decides a lookup: DENY gives ACCESS_DENIED, a last address
outside the window RANGE, a right that is off ACCESS_DENIED, and otherwise the slot resolves it; with no such slot the result
is NO_ROUTE. No range is joined across slots or wrapped (R2, R6). -/
def Obligations.LookupDecidesInOrder : Prop :=
  ∀ (bank : Bank) (kind : Kind) (a : Half) (n : Nat), bank.valid = true → 1 ≤ n →
    kind = .read ∨ kind = .write ∨ kind = .writePosted ∨ kind = .watch →
    (∀ j : SlotId,
      let r := Table.get bank j
      let right := if kind = .read then r.rights.read else if kind = .watch then r.rights.watch else r.rights.write
      r.kind ≠ .unused → r.base.toNat ≤ a.toNat → a.toNat ≤ r.limit.toNat →
      bank.lookup kind a n =
        if r.kind = .deny then .error .accessDenied
        else if r.limit.toNat < a.toNat + n - 1 then .error .range
        else if right = false then .error .accessDenied
        else .ok r) ∧
    ((∀ j : SlotId, (Table.get bank j).kind = .unused ∨ a.toNat < (Table.get bank j).base.toNat ∨
        (Table.get bank j).limit.toNat < a.toNat) →
      bank.lookup kind a n = .error .noRoute)

/-- A lookup in a valid bank that succeeds gives every member's branch and device as stored, the register base offset by the
distance into the window, and no register past 255 (R7, R9). -/
def Obligations.LookupTargetsStayInRange : Prop :=
  ∀ (bank : Bank) (kind : Kind) (a : Half) (n : Nat) (r : Route) (m : RouteMember), bank.valid = true → 1 ≤ n →
    bank.lookup kind a n = .ok r → m ∈ r.members →
    (r.target a m).branch.val = m.branch.toNat ∧ (r.target a m).device = m.device ∧
      1 ≤ m.device.toNat ∧ m.device.toNat ≤ 30 ∧
      (r.target a m).register.toNat = m.base.toNat + (a.toNat - r.base.toNat) ∧
      (r.target a m).register.toNat + n - 1 ≤ 255

/-- A bank is valid exactly when every slot meets the validity conditions and no two windows meet; otherwise validation reports
the first slot that fails one, the first condition it fails in the order of the table, and for OVERLAP the lowest-indexed slot
it meets (R9, R10). -/
def Obligations.ValidBankMeetsTheConditions : Prop :=
  ∀ bank : Bank,
    (bank.valid = true ↔
      (∀ i : SlotId, (Table.get bank i).kind = .unused → (Table.get bank i).members = []) ∧
      (∀ i : SlotId,
        let r := Table.get bank i
        r.kind ≠ .unused →
        r.base.toNat ≤ r.limit.toNat ∧ r.limit.toNat - r.base.toNat ≤ 255 ∧
        (r.kind = .direct → r.members.length = 1) ∧
        (r.kind = .group → 1 ≤ r.members.length ∧ r.members.length ≤ 4 ∧ (r.members.map (·.branch)).Nodup ∧
          r.rights.read = false ∧ r.rights.watch = false) ∧
        (r.kind = .deny → r.members = [] ∧ r.rights = ⟨false, false, false⟩) ∧
        (∀ m ∈ r.members, 1 ≤ m.device.toNat ∧ m.device.toNat ≤ 30 ∧ m.branch.toNat ≤ 3 ∧
          m.base.toNat + (r.limit.toNat - r.base.toNat) ≤ 255)) ∧
      (∀ i j : SlotId, i ≠ j → (Table.get bank i).kind ≠ .unused → (Table.get bank j).kind ≠ .unused →
        (Table.get bank i).limit.toNat < (Table.get bank j).base.toNat ∨
          (Table.get bank j).limit.toNat < (Table.get bank i).base.toNat)) ∧
    (bank.valid = true ↔ bank.validate = none) ∧
    ∀ f : ValidityFailure, bank.validate = some f ↔
      bank.Fails f.slot f.reason ∧
        (∀ r : ValidityReason, r.code.toNat < f.reason.code.toNat → ¬ bank.Fails f.slot r) ∧
        (∀ j, j < f.slot → ∀ r, ¬ bank.Fails j r) ∧
        (f.reason ≠ .overlap → f.other = none) ∧
        (f.reason = .overlap → ∃ k, f.other = some k ∧ bank.Meets f.slot k ∧ ∀ j, j < k → ¬ bank.Meets f.slot j)

/-! ## Admission -/

/-- While a condition for taking the head fails, every command that takes frames leaves the state unchanged: the halt flag is
set, no entry is FREE, or, for a DATA head, 14 DATA entries are in use or a commit is pending (R45, R46). -/
def Obligations.WaitingHeadStaysUnchanged : Prop :=
  ∀ (s : State) (fr : Frame) (rest : List Frame), s.rx.inbound = fr :: rest →
    (s.halt = true ∨ (∀ i, (s.entry i).inUse = true) ∨
      (fr.kind ∈ [0x01#8, 0x02#8, 0x03#8, 0x04#8] ∧
        (14 ≤ s.table.dataInUse ∨ s.routes.pendingCommit.isSome = true))) →
    ∀ c ∈ [Instr.read, .write, .writePosted, .watch, .cancel, .identify, .getStatus, .stageRoute, .readRoute,
        .commitImmediate, .commitQuiesce, .discard, .setBranchEnable, .setBranchDisable, .getBranch,
        .setArbiter, .resetSoft, .resetFull, .unknownKind],
      exec c s = .next s

/-- A frame whose tag belongs to an entry in use is discarded with DUPLICATE_TAG: no entry is allocated, no count moves, and
only its leaving the queue and the last-admitted tag remain of it (R30, R47, R55). A malformed frame that is no posted write is
answered BAD_REQUEST from an entry of its own and has no other effect; a frame of unknown kind is one, and holds a CONTROL entry
(R25, R52, R54). That the data field of a malformed WRITE is left empty is the model's choice: log entry 36. That BAD_REQUEST
carries no generation for a malformed COMMIT or another kind that R4 names is R148 against R4 and R21: log entry 37. -/
def Obligations.DuplicateTagsAndMalformedFramesAreTurnedAway : Prop :=
  (∀ (s : State) (fr : Frame) (rest : List Frame), s.rx.inbound = fr :: rest → s.admissible fr.kind = true →
     s.tagInUse fr.tag = true →
     ∃ n, s.noticed fr rest (.duplicateTag fr.tag fr.kind) n ∧
       exec fr.command s = .next { s.taken fr rest with notices := n }) ∧
  (∀ (s : State) (fr : Frame) (rest : List Frame) (i : EntryId), s.Takes fr rest i → fr.request = none →
     fr.kind ≠ 0x03#8 →
     exec fr.command s = .next ((s.taken fr rest).answered fr i .badRequest .nothing) ∧
     (Kind.ofCode fr.kind = none →
       exec .unknownKind s = .next ((s.taken fr rest).answered fr i .badRequest .nothing) ∧
       classOf fr.kind = .control))

/-- A posted write that is malformed, or that the lookup or the branch check refuses, is freed within its admission and reported
by POSTED_FAILED: no count moves and no tag stays in use (R40, R54, R61). -/
def Obligations.RefusedPostedWriteIsReportedByNotice : Prop :=
  ∀ (s : State) (fr : Frame) (rest : List Frame) (i : EntryId) (status : Status), s.Takes fr rest i →
    fr.kind = 0x03#8 →
    ((fr.request = none ∧ status = .badRequest) ∨
      (∃ a d, fr.request = some (.write true a d) ∧
        (s.routes.active.lookup .writePosted a d.length = .error status ∨
          ∃ r m, s.routes.active.lookup .writePosted a d.length = .ok r ∧ r.kind = .direct ∧ r.members = [m] ∧
            (s.engine (r.target a m).branch).up = false ∧ status = .branchDown))) →
    status ≠ .ok → status ≠ .cancelled →
    ∃ n, s.noticed fr rest (.postedFailed fr.tag status []) n ∧
      exec .writePosted s =
        .next { s.taken fr rest with
          notices := n, table := { s.table with entries := Table.set s.table.entries i Entry.free } }

/-- A READ, WRITE or WATCH that the lookup refuses, or whose DIRECT branch is down, is answered from CTL with its address and
length, no data, no list and no value, and touches no branch queue (R39, R57, R60). -/
def Obligations.RefusedDataRequestIsAnsweredFromCtl : Prop :=
  ∀ (s : State) (fr : Frame) (rest : List Frame) (i : EntryId), s.Takes fr rest i →
    let answer (status : Status) (a : Half) (n : Nat) (data : List Byte) (reply : Reply) :=
      ((s.taken fr rest).enter i
        { fr.record s.routes.generation with
          address := some a, length := some n, data := data, status := some status, reply := reply }).joinCtl i
    (∀ a n status, fr.request = some (.read a n) → s.routes.active.lookup .read a n = .error status →
      status ≠ .badRequest → status ≠ .ok →
      exec .read s = .next (answer status a n [] (.read a n none))) ∧
    (∀ a d status, fr.request = some (.write false a d) →
      s.routes.active.lookup .write a d.length = .error status → status ≠ .badRequest →
      exec .write s = .next (answer status a d.length d (.write a d.length []))) ∧
    (∀ a iv li mask pat status, fr.request = some (.watch a iv li mask pat) →
      s.routes.active.lookup .watch a mask.length = .error status → status ≠ .badRequest →
      exec .watch s = .next (answer status a mask.length [] (.watch a mask.length none))) ∧
    (∀ a r m, r.kind = .direct → r.members = [m] → (s.engine (r.target a m).branch).up = false →
      let down (n : Nat) (data : List Byte) (w : Option WatchRecord) (reply : Reply) :=
        ((s.taken fr rest).enter i
          { fr.record s.routes.generation with
            address := some a, length := some n, members := [r.target a m], data := data, watch := w,
            status := some .branchDown, reply := reply }).joinCtl i
      (∀ n, fr.request = some (.read a n) → s.routes.active.lookup .read a n = .ok r →
        exec .read s = .next (down n [] none (.read a n none))) ∧
      (∀ d, fr.request = some (.write false a d) → s.routes.active.lookup .write a d.length = .ok r →
        exec .write s = .next (down d.length d none (.write a d.length []))) ∧
      (∀ iv li mask pat, fr.request = some (.watch a iv li mask pat) →
        s.routes.active.lookup .watch a mask.length = .ok r →
        exec .watch s =
          .next (down mask.length [] (some ⟨mask, pat, iv, li, none⟩) (.watch a mask.length none))))

/-- A data request that a DIRECT slot resolves and whose branch is up goes QUEUED with one PENDING member, and its item joins
the tail of that branch's queue (R7, R26, R39, R56, R57, R59, R95). -/
def Obligations.DirectRequestIsPlaced : Prop :=
  ∀ (s : State) (fr : Frame) (rest : List Frame) (i : EntryId) (r : Route) (m : RouteMember) (a : Half),
    s.Takes fr rest i → r.kind = .direct → r.members = [m] → (s.engine (r.target a m).branch).up = true →
    let x : Member :=
      { branch := (r.target a m).branch, device := m.device, register := (r.target a m).register,
        state := .pending, outcome := none }
    let placed (n : Nat) (data : List Byte) (w : Option WatchRecord) :=
      let t := (s.taken fr rest).enter i
        { fr.record s.routes.generation with
          state := .queued, address := some a, length := some n, members := [x], data := data, watch := w,
          source := .branch x.branch }
      t.setEngine x.branch { s.engine x.branch with queue := (s.engine x.branch).queue ++ [⟨i, 0⟩] }
    (∀ n, fr.request = some (.read a n) → s.routes.active.lookup .read a n = .ok r →
      exec .read s = .next (placed n [] none)) ∧
    (∀ d, fr.request = some (.write false a d) → s.routes.active.lookup .write a d.length = .ok r →
      exec .write s = .next (placed d.length d none)) ∧
    (∀ d, fr.request = some (.write true a d) → s.routes.active.lookup .writePosted a d.length = .ok r →
      exec .writePosted s = .next (placed d.length d none)) ∧
    (∀ iv li mask pat, fr.request = some (.watch a iv li mask pat) →
      s.routes.active.lookup .watch a mask.length = .ok r →
      exec .watch s = .next (placed mask.length [] (some ⟨mask, pat, iv, li, none⟩)))

/-- A group write with at least one branch up goes QUEUED: members on branches that are down finish BRANCH_DOWN, and each of the
others receives one item at the tail of its branch's queue (R58, R59, R108 to R110). -/
def Obligations.GroupWriteSpawnsItsMembers : Prop :=
  ∀ (s : State) (fr : Frame) (rest : List Frame) (i : EntryId) (posted : Bool) (a : Half) (d : List Byte) (r : Route),
    s.Takes fr rest i → fr.request = some (.write posted a d) →
    s.routes.active.lookup (if posted then .writePosted else .write) a d.length = .ok r → r.kind = .group →
    (∃ m ∈ r.members, (s.engine (r.target a m).branch).up = true) →
    let members := r.members.map (fun m =>
      if (s.engine (r.target a m).branch).up then r.target a m
      else { r.target a m with state := .finished, outcome := some .branchDown })
    ∃ t, exec (if posted then .writePosted else .write) s = .next t ∧
      t = { s.taken fr rest with table := t.table, engines := t.engines } ∧
      t.table =
        ((s.taken fr rest).enter i
          { fr.record s.routes.generation with
            state := .queued, address := some a, length := some d.length, members := members, data := d,
            group := true }).table ∧
      ∀ b, t.engine b =
        { s.engine b with
          queue := (s.engine b).queue ++
            (members.zipIdx.filter (fun x => x.1.state == .pending && x.1.branch == b)).map (fun x => ⟨i, x.2⟩) }

/-- A group write all of whose branches are down completes at its admission with BRANCH_DOWN and lists every member: answered
from CTL, or freed with POSTED_FAILED for a posted write; no branch queue is touched (R58, R60, R61, R116). -/
def Obligations.GroupWithEveryBranchDownIsRefused : Prop :=
  ∀ (s : State) (fr : Frame) (rest : List Frame) (i : EntryId) (posted : Bool) (a : Half) (d : List Byte) (r : Route),
    s.Takes fr rest i → fr.request = some (.write posted a d) →
    s.routes.active.lookup (if posted then .writePosted else .write) a d.length = .ok r → r.kind = .group →
    r.members ≠ [] → (∀ m ∈ r.members, (s.engine (r.target a m).branch).up = false) →
    let members := r.members.map (fun m =>
      { r.target a m with state := .finished, outcome := some .branchDown })
    let outcomes := r.members.map (fun m => ((r.target a m).branch, Status.branchDown))
    (posted = false →
      exec .write s =
        .next (((s.taken fr rest).enter i
          { fr.record s.routes.generation with
            address := some a, length := some d.length, members := members, data := d, group := true,
            status := some .branchDown, reply := .write a d.length outcomes }).joinCtl i)) ∧
    (posted = true →
      ∃ n, s.noticed fr rest (.postedFailed fr.tag .branchDown outcomes) n ∧
        exec .writePosted s =
          .next { s.taken fr rest with
            notices := n, table := { s.table with entries := Table.set s.table.entries i Entry.free } })

/-! ## Control requests -/

/-- IDENTIFY answers the constants of the part, the rate code in force and the generation; it and GET_STATUS with a payload are
answered BAD_REQUEST. GET_STATUS answers one snapshot of every block, taken after its own frame has left the queue and its own
entry has been allocated, with the notice queue before or after the CREDIT that its own taking may cause: log entry 12 (R181 to
R183, 12.5). That BAD_REQUEST carries no generation is R148 against R4: log entry 37. -/
def Obligations.IdentifyAndGetStatusAnswer : Prop :=
  ((∀ (s : State) (fr : Frame) (rest : List Frame) (i : EntryId), s.Takes fr rest i → fr.kind = 0x11#8 →
     (fr.payload = [] →
       exec .identify s =
         .next ((s.taken fr rest).answered fr i .ok (.identify s.rx.rate s.routes.generation))) ∧
     (fr.payload ≠ [] →
       exec .identify s = .next ((s.taken fr rest).answered fr i .badRequest .nothing))) ∧
   ∀ (rate : RateCode) (g : Half),
     (Reply.identify rate g).bytes =
       [0x57#8, 0x41#8, 0x04#8, 0x16#8, 1#8, 16#8, 14#8, 32#8, 4#8, 8#8, 8#8, rate.setWidth 8, g.high, g.low]) ∧
  (∀ (s : State) (fr : Frame) (rest : List Frame) (i : EntryId), s.Takes fr rest i → fr.kind = 0x12#8 →
     (fr.payload ≠ [] → exec .getStatus s = .next ((s.taken fr rest).answered fr i .badRequest .nothing)) ∧
     (fr.payload = [] →
     ∃ n, (n = s.notices ∨ n = (s.taken fr rest).notices) ∧
       exec .getStatus s =
         .next ((s.taken fr rest).answered fr i .ok
           (.status
             { inboundFree := 8 - rest.length
               dataInUse := s.table.dataInUse
               controlInUse := s.table.controlInUse + 1
               commitRemaining := s.routes.pendingCommit.map (fun p => (p.remaining + 1151999) / 1152000)
               arbiterMode := s.arbiter.config.mode
               branches := s.engines.map (·.state)
               noticeDepth := n.queue.length
               lost := n.lost
               generation := s.routes.generation }))))

/-- STAGE_ROUTE replaces one slot of the staging bank and nothing else of the table, and DISCARD makes the staging bank equal to
the active bank; while a commit is pending both are answered STAGING_LOCKED and change nothing of it (R11, R12, R22). -/
def Obligations.StagingBankIsEditedOrLocked : Prop :=
  (∀ (s : State) (fr : Frame) (rest : List Frame) (i : EntryId) (slot : SlotId) (record : Route), s.Takes fr rest i →
     fr.request = some (.stageRoute slot record) →
     exec .stageRoute s =
       .next
         (if s.routes.pendingCommit.isSome then
           (s.taken fr rest).answered fr i .stagingLocked (.stageRoute slot)
         else
           ((s.taken fr rest).answered fr i .ok (.stageRoute slot)).setRoutes
             { s.routes with staging := Table.set s.routes.staging slot record })) ∧
  (∀ (s : State) (fr : Frame) (rest : List Frame) (i : EntryId), s.Takes fr rest i → fr.kind = 0x16#8 →
     fr.payload = [] →
     (s.routes.pendingCommit.isSome = true →
       exec .discard s =
         .next ((s.taken fr rest).answered fr i .stagingLocked (.discard s.routes.generation))) ∧
     (s.routes.pendingCommit.isSome = false →
       exec .discard s =
         .next (((s.taken fr rest).answered fr i .ok (.discard s.routes.generation)).setRoutes
           { s.routes with staging := s.routes.active })))

/-- READ_ROUTE answers the record as stored and the generation, at all times; a bank selector or slot out of range is malformed
(R13). GET_BRANCH answers the configuration and the state of the engine, and changes nothing in it; a branch out of range is
malformed (R92). -/
def Obligations.ReadRouteAndGetBranchReportWhatIsHeld : Prop :=
  (∀ (s : State) (fr : Frame) (rest : List Frame) (i : EntryId), s.Takes fr rest i → fr.kind = 0x14#8 →
     (∀ slot : SlotId, fr.payload = [0#8, Byte.ofCount slot.val] →
       exec .readRoute s =
         .next ((s.taken fr rest).answered fr i .ok
           (.readRoute .active slot (Table.get s.routes.active slot) s.routes.generation))) ∧
     (∀ slot : SlotId, fr.payload = [1#8, Byte.ofCount slot.val] →
       exec .readRoute s =
         .next ((s.taken fr rest).answered fr i .ok
           (.readRoute .staging slot (Table.get s.routes.staging slot) s.routes.generation))) ∧
     (∀ bank slot : Byte, fr.payload = [bank, slot] → (1 < bank.toNat ∨ 31 < slot.toNat) →
       exec .readRoute s = .next ((s.taken fr rest).answered fr i .badRequest .nothing))) ∧
  (∀ (s : State) (fr : Frame) (rest : List Frame) (i : EntryId), s.Takes fr rest i → fr.kind = 0x18#8 →
     (∀ b : BranchId, fr.payload = [Byte.ofCount b.val] →
       exec .getBranch s =
         .next ((s.taken fr rest).answered fr i .ok
           (.getBranch b (s.engine b).config (s.engine b).state (s.engine b).disablePending
             (s.engine b).queue.length (s.engine b).lastFault))) ∧
     (∀ x : Byte, fr.payload = [x] → 3 < x.toNat →
       exec .getBranch s = .next ((s.taken fr rest).answered fr i .badRequest .nothing)))

/-- A COMMIT is tested in the order of R14: busy, stale generation, invalid table; one that passes in IMMEDIATE mode, or in
QUIESCE mode with no DATA entry in use, is performed at its admission; otherwise the quiesce wait starts with its entry HELD
(R14 to R17, R21). -/
def Obligations.CommitIsTestedInOrder : Prop :=
  ∀ (s : State) (fr : Frame) (rest : List Frame) (i : EntryId) (expected : Half) (mode : CommitMode) (timeout : Half),
    s.Takes fr rest i → fr.request = some (.commit expected mode timeout) →
    let g := s.routes.generation
    let performed :=
      ((s.taken fr rest).answered fr i .ok (.commit (g + 1#16) none)).setRoutes
        { s.routes with active := s.routes.staging, generation := g + 1#16 }
    let waiting :=
      ((s.taken fr rest).enter i { fr.record g with state := .held }).setRoutes
        { s.routes with
          pendingCommit := some { entry := i, tag := fr.tag, remaining := timeout.toNat * 1152000 } }
    let t :=
      if s.routes.pendingCommit.isSome then (s.taken fr rest).answered fr i .commitBusy (.commit g none)
      else if expected ≠ g then (s.taken fr rest).answered fr i .staleGeneration (.commit g none)
      else
        match s.routes.staging.validate with
        | some f => (s.taken fr rest).answered fr i .tableInvalid (.commit g (some f))
        | none => if mode = .immediate ∨ s.table.dataInUse = 0 then performed else waiting
    (mode = .immediate → exec .commitImmediate s = .next t) ∧
    (mode = .quiesce → exec .commitQuiesce s = .next t)

/-- The quiesce wait ends by drain, which performs the commit and completes the HELD entry OK with the new generation, when no
DATA entry is in use, and by timeout, which leaves banks and generation as they are and completes it QUIESCE_TIMEOUT (R18,
R19, R36). -/
def Obligations.QuiesceEndsByDrainOrTimeout : Prop :=
  ∀ (s : State) (p : PendingCommit), s.stopped = false → s.routes.pendingCommit = some p →
    (s.entry p.entry).state = .held → (s.entry p.entry).source = .ctl →
    let g := s.routes.generation
    let finished (status : Status) (reply : Reply) :=
      (s.setEntry p.entry
        { s.entry p.entry with state := .complete, status := some status, reply := reply }).joinCtl p.entry
    (s.table.dataInUse = 0 →
      exec .quiesceDrain s =
        .next ((finished .ok (.commit (g + 1#16) none)).setRoutes
          { s.routes with active := s.routes.staging, generation := g + 1#16, pendingCommit := none })) ∧
    exec .quiesceTimeout s =
      .next ((finished .quiesceTimeout (.commit g none)).setRoutes { s.routes with pendingCommit := none })

/-- SET_BRANCH replaces the whole record. With enabled yes it clears the disable-pending flag and makes a DISABLED engine IDLE,
and an engine in any other state keeps it. With enabled no it sets the flag of an engine in EXCHANGE or RECOVERY. In any other
state the disable is carried out at once: in RETRY_WAIT the item in service ends with BRANCH_DOWN, then the queue and the
waiting watches of the branch end with it (FlushEndsQueueAndWaitingWatches), and the engine goes DISABLED; what this completes
on CTL stands there ahead of the SET_BRANCH response (R88 to R91). A closing mark of a FULL reset goes on: log entry 9. The
CREDIT that the taking may cause comes before or after all the notices of the posted writes that end: log entry 12. -/
def Obligations.SetBranchEnablesOrDisables : Prop :=
  (∀ (s : State) (fr : Frame) (rest : List Frame) (i : EntryId) (b : BranchId) (c : BranchConfig), s.Takes fr rest i →
     fr.request = some (.setBranch b c) → c.enabled = true →
     let st := if (s.engine b).state = .disabled then EngineState.idle else (s.engine b).state
     exec .setBranchEnable s =
       .next (((s.taken fr rest).answered fr i .ok (.setBranch b st false)).setEngine b
         { s.engine b with config := c, disablePending := false, state := st })) ∧
  (∀ (s : State) (fr : Frame) (rest : List Frame) (i : EntryId) (b : BranchId) (c : BranchConfig), s.Takes fr rest i →
     fr.request = some (.setBranch b c) → c.enabled = false →
     let g := s.engine b
     let down (u : State) : State :=
       ((u.flushBranch b .branchDown).setEngine b
         { g with
           config := c, queue := [], inService := (u.engine b).inService, state := .disabled, disablePending := false,
           retryTimer := none, recoveryTimer := none, copy := none,
           wire := if g.wire = .closingMark then .closingMark else .released }).completeEntry i .ok
         (.setBranch b .disabled false)
     let disables (act : State → State) : Prop :=
       ∃ t, exec .setBranchDisable s = .next t ∧
         s.didTaking fr rest (fun u => down (act (u.enter i (fr.record s.routes.generation)))) t
     (g.state = .exchange ∨ g.state = .recovery →
       exec .setBranchDisable s =
         .next (((s.taken fr rest).answered fr i .ok (.setBranch b g.state true)).setEngine b
           { g with config := c, disablePending := true })) ∧
     (g.state = .idle ∨ g.state = .disabled ∨ g.state = .faulted →
       disables (fun u => u.setEngine b { g with config := c })) ∧
     (∀ it, g.state = .retryWait → g.inService = some it →
       disables (fun u =>
         (u.setEngine b { g with config := c, retryTimer := none, inService := none }).finishMember it .branchDown)) ∧
     (g.state = .idle ∨ g.state = .disabled ∨ g.state = .faulted →
       g.queue = [] → (∀ t ∈ s.timers, s.timerOn b t = false) →
       exec .setBranchDisable s =
         .next (((s.taken fr rest).answered fr i .ok (.setBranch b .disabled false)).setEngine b
           { g with
             config := c, state := .disabled, disablePending := false, retryTimer := none,
             recoveryTimer := none, copy := none,
             wire := if g.wire = .closingMark then .closingMark else .released })))

/-- Ending everything on a branch with one outcome, as a disable and a fault do. The queue is emptied, the timers of the waiting
watches of the branch leave the list, and the others keep their order. Every queued member that is the only work of its entry
there is FINISHED with that outcome, its entry being freed if it was a posted write that this completes. Every waiting watch of
the branch completes with that outcome and carries its last value. DIRECT entries join the source of the branch in the order of
the queue and, after them, of the list (R31, R34, R86, R89, R105). -/
def Obligations.FlushEndsQueueAndWaitingWatches : Prop :=
  (∀ (s : State) (b : BranchId) (o : Status),
     let t := s.flushBranch b o
     (t.engine b).queue = [] ∧ t.timers = s.timers.filter (fun x => !s.timerOn b x) ∧
     (∀ c, c ≠ b → t.engine c = s.engine c) ∧
     ∀ it m, it ∈ (s.engine b).queue → s.member it = some m →
       ((s.engine b).queue.countP (fun x => x.entry == it.entry) = 1) → (∀ x ∈ s.timers, x.entry ≠ it.entry) →
       (s.entry it.entry).state = .queued ∨ (s.entry it.entry).state = .active →
       t.member it = some { m with state := .finished, outcome := some o } ∨
         ((s.entry it.entry).posted = true ∧ t.entry it.entry = Entry.free)) ∧
  (∀ (s : State) (b : BranchId) (o : Status), s.Placed →
     let items := (s.engine b).queue
     let watches := s.timers.filter (s.timerOn b)
     let t := s.flushBranch b o
     (∀ x m a n w, x ∈ watches →
       let e := s.entry x.entry
       e.kind = 0x04#8 → e.posted = false → e.cancelRequested = false → e.members = [m] → e.address = some a →
       e.length = some n → e.watch = some w →
       t.entry x.entry =
         { e with
           state := .complete, members := [{ m with state := .finished, outcome := some o }], status := some o,
           reply := .watch a n w.last }) ∧
     ((∀ it ∈ items, (s.entry it.entry).posted = false ∧ (s.entry it.entry).members.length = 1 ∧
         (s.entry it.entry).source = .branch b) →
       (∀ x ∈ watches, (s.entry x.entry).posted = false ∧ (s.entry x.entry).source = .branch b) →
       t.sourceQueue (.branch b) =
         s.sourceQueue (.branch b) ++ items.map (·.entry) ++ watches.map (·.entry)))

/-- SET_ARBITER replaces the four fields of the configuration and answers them; the grant, the round set and the decision mode
wait for the next decision (R147). RESET sets the halt flag, records the scope with its entry and is answered OK; nothing is
reset yet (R49, R184). -/
def Obligations.SetArbiterAndResetAreAnswered : Prop :=
  (∀ (s : State) (fr : Frame) (rest : List Frame) (i : EntryId) (c : ArbiterConfig), s.Takes fr rest i →
     fr.request = some (.setArbiter c) →
     exec .setArbiter s =
       .next (((s.taken fr rest).answered fr i .ok (.setArbiter c)).setArbiter
         { s.arbiter with config := c, ctlQueue := s.arbiter.ctlQueue ++ [i] })) ∧
  (∀ (s : State) (fr : Frame) (rest : List Frame) (i : EntryId) (scope : ResetScope), s.Takes fr rest i →
     fr.request = some (.reset scope) →
     let t := ((s.taken fr rest).enter i
       { fr.record s.routes.generation with
         status := some .ok, reply := .reset scope, scope := some scope }).joinCtl i
     (scope = .soft → exec .resetSoft s = .next { t with halt := true }) ∧
     (scope = .full → exec .resetFull s = .next { t with halt := true }))

/-- A CANCEL that finds no entry in use with its target tag is answered NOT_FOUND, and one that finds a COMPLETE or SENDING
entry TOO_LATE; neither changes anything but its own entry. It ends a waiting WATCH, a queued READ, or the quiesce wait of a
HELD COMMIT at once, the target standing ahead of the CANCEL where they share CTL (R121 to R123, R127, R128, R130). -/
def Obligations.CancelSettlesByTheStateItFinds : Prop :=
  (∀ (s : State) (fr : Frame) (rest : List Frame) (i : EntryId) (target : Byte), s.Takes fr rest i →
     fr.request = some (.cancel target) →
     ((∀ j, (s.entry j).inUse = true → (s.entry j).tag ≠ target) →
       exec .cancel s = .next ((s.taken fr rest).answered fr i .notFound (.cancel target))) ∧
     (∀ j, (s.entry j).inUse = true → (s.entry j).tag = target →
       (∀ k, (s.entry k).inUse = true → (s.entry k).tag = target → k = j) →
       (s.entry j).state = .complete ∨ (s.entry j).state = .sending →
       exec .cancel s = .next ((s.taken fr rest).answered fr i .tooLate (.cancel target)))) ∧
  (∀ (s : State) (fr : Frame) (rest : List Frame) (i j : EntryId) (target : Byte), s.Takes fr rest i →
     fr.request = some (.cancel target) → (s.entry j).inUse = true → (s.entry j).tag = target →
     (∀ k, (s.entry k).inUse = true → (s.entry k).tag = target → k = j) →
     let e := s.entry j
     let t := s.taken fr rest
     let own := { fr.record s.routes.generation with status := some Status.ok, reply := Reply.cancel target }
     (∀ m a n w b, e.state = .waiting → e.kind = 0x04#8 → e.posted = false → e.members = [m] → m.state = .pending →
       e.address = some a → e.length = some n → e.watch = some w → e.source = .branch b →
       exec .cancel s =
         .next (((((t.enter i own).setTimers (s.timers.filter (fun x => x.entry != j))).setEntry j
           { e with
             state := .complete, members := [{ m with state := .dropped, outcome := some .dropped }],
             status := some .cancelled, reply := .watch a n w.last }).joinBranch b j).joinCtl i)) ∧
     (∀ m a n b, e.state = .queued → e.kind = 0x01#8 → e.posted = false → e.members = [m] → m.state = .pending →
       e.address = some a → e.length = some n → e.source = .branch b →
       exec .cancel s =
         .next (((((t.enter i own).setEngine m.branch
           { s.engine m.branch with queue := (s.engine m.branch).queue.filter (· != ⟨j, 0⟩) }).setEntry j
           { e with
             state := .complete, members := [{ m with state := .dropped, outcome := some .dropped }],
             status := some .cancelled, reply := .read a n none }).joinBranch b j).joinCtl i)) ∧
     (e.state = .held → e.source = .ctl →
       exec .cancel s =
         .next (((((t.enter i own).setRoutes { s.routes with pendingCommit := none }).setEntry j
           { e with
             state := .complete, status := some .cancelled,
             reply := .commit s.routes.generation none }).joinCtl j).joinCtl i)))

/-- A CANCEL of a QUEUED or ACTIVE target acts member by member and is answered OK from its own entry. A finished or dropped
member keeps its outcome; a PENDING one is DROPPED and its item leaves its branch queue, the others closing up in order; one in
a retry wait is DROPPED and its engine goes IDLE with nothing in service and both retry counts 0; one whose try or recovery is
on the wire stays in service with cancel requested set, and the target stays as it was. With no such member the target ends at
once: COMPLETE with CANCELLED in its own source, ahead of the CANCEL where that is CTL, with no data for a READ, no list for a
DIRECT WRITE, the outcomes in route order for a GROUP and the last value for a WATCH; or, for a posted write, FREE with no notice
(R116, R119, R121, R123, R124, R126, R129, R149). -/
def Obligations.CancelActsMemberByMember : Prop :=
  ∀ (s : State) (fr : Frame) (rest : List Frame) (i j : EntryId) (target : Byte), s.Takes fr rest i →
    fr.request = some (.cancel target) → (s.entry j).inUse = true → (s.entry j).tag = target →
    (∀ k, (s.entry k).inUse = true → (s.entry k).tag = target → k = j) →
    (s.entry j).state = .queued ∨ (s.entry j).state = .active → (s.entry j).source ≠ .ntc →
    ((s.entry j).members.map (·.branch)).Nodup →
    let e := s.entry j
    let stays (m : Member) : Bool := m.state == .inService && (s.engine m.branch).state != .retryWait
    let after (m : Member) : Member :=
      if m.state = .pending ∨ (m.state = .inService ∧ stays m = false) then
        { m with state := .dropped, outcome := some .dropped }
      else m
    let gone (b : BranchId) (it : Item) : Bool :=
      it.entry == j &&
        (match e.members[it.member]? with
         | some m => m.state == .pending && m.branch == b
         | none => false)
    ∃ t, exec .cancel s = .next t ∧
      t.entry i = { fr.record s.routes.generation with status := some .ok, reply := .cancel target } ∧
      (e.members.any stays = true →
        t.entry j = { e with members := e.members.map after, cancelRequested := true } ∧
          t.sourceQueue .ctl = s.sourceQueue .ctl ++ [i]) ∧
      (e.members.any stays = false → (∃ m ∈ e.members, m.state = .pending ∨ m.state = .inService) →
        (e.posted = false →
          t.entry j =
              { e with
                state := .complete, status := some .cancelled, members := e.members.map after
                reply := (t.entry j).reply } ∧
            (∀ a n, e.address = some a → e.length = some n →
              (e.kind = 0x01#8 → (t.entry j).reply = .read a n none) ∧
              (e.kind = 0x02#8 → e.group = false → (t.entry j).reply = .write a n []) ∧
              (∀ l : List (BranchId × Status), e.kind = 0x02#8 → e.group = true →
                (e.members.map after).map (fun m => (m.branch, m.outcome)) = l.map (fun x => (x.1, some x.2)) →
                (t.entry j).reply = .write a n l) ∧
              (e.kind = 0x04#8 → (t.entry j).reply = .watch a n (e.watch.bind (·.last)))) ∧
            t.sourceQueue .ctl = s.sourceQueue .ctl ++ (if e.source = .ctl then [j, i] else [i]) ∧
            ∀ b, t.sourceQueue (.branch b) =
              s.sourceQueue (.branch b) ++ (if e.source = .branch b then [j] else [])) ∧
        (e.posted = true →
          t.entry j = Entry.free ∧ t.notices = (s.taken fr rest).notices ∧
            t.sourceQueue .ctl = s.sourceQueue .ctl ++ [i] ∧
            (e.cls = .data → t.table.dataInUse = s.table.dataInUse - 1))) ∧
      (∀ k, k ≠ j → k ≠ i → t.entry k = s.entry k) ∧ t.timers = s.timers ∧
      ∀ b,
        let g := { s.engine b with queue := (s.engine b).queue.filter (fun it => !gone b it) }
        t.engine b =
          if g.state = .retryWait ∧ (∃ m ∈ e.members, m.state = .inService ∧ m.branch = b) then
            { g with state := .idle, retryTimer := none, inService := none, busyUsed := 0, checkUsed := 0 }
          else g

/-! ## The branch engines -/

/-- An IDLE engine takes the head item: the member goes IN_SERVICE and its entry ACTIVE, the retry counts start at 0, the
configuration is copied, and the line sample leads to EXCHANGE, with the header, index and count cells and for a write the
data and the check cell, or to a recovery sequence. On BCK and BDA, by half bit periods, an exchange is the opening mark, the
header cell and the presence slot, then to a present device the other cells, most significant bit first, and the bit periods in
which BDA is released to the target, and the closing mark; a recovery sequence and a periodic attempt are 16 pulses and a closing
mark. A bit of the target is the level of BDA as BCK rises, and eight make a cell, most significant first (R33, R65, R67 to R72,
R74, R77, R82, R84, R87, R93). -/
def Obligations.EngineTakesTheHeadItem : Prop :=
  (∀ (s : State) (b : BranchId) (bck bda : Bool) (it : Item) (rest : List Item) (m : Member), s.stopped = false →
    (s.engine b).state = .idle → (s.engine b).wire = .released → (s.engine b).queue = it :: rest →
    s.member it = some m →
    let e := s.entry it.entry
    let n := Byte.ofCount (e.length.getD 0)
    let reads := e.kind = 0x01#8 ∨ e.kind = 0x04#8
    let header := (m.device <<< 3) ||| (if reads then 0b001#8 else 0b010#8)
    let lead := [header, m.register, n]
    let cells := if reads then lead else lead ++ e.data ++ [crc8 (lead ++ e.data)]
    exec (.engineTakeItem b bck bda) s =
      .next ((s.setEntry it.entry
        { e with
          state := if e.state = .queued then .active else e.state
          members := e.members.set it.member { m with state := .inService, outcome := none } }).setEngine b
        { s.engine b with
          state := if bck = true ∧ bda = true then .exchange else .recovery
          queue := rest, inService := some it, busyUsed := 0, checkUsed := 0, retryTimer := none
          copy := some (s.engine b).config
          wire := if bck = true ∧ bda = true then .exchange cells else .recovery .beforeTry })) ∧
  (let both (bck bda : Pull) : Drive := ⟨bck, bda⟩
   let level (bit : Bool) : Pull := if bit then .released else .low
   let sent (bit : Bool) := [both .low (level bit), both .released (level bit)]
   let listens := [both .low .released, both .released .released]
   let bits (v : Byte) := [v.getLsbD 7, v.getLsbD 6, v.getLsbD 5, v.getLsbD 4, v.getLsbD 3, v.getLsbD 2, v.getLsbD 1, v.getLsbD 0]
   let cell (v : Byte) := ((bits v).map sent).flatten
   let opening := [both .released .low, both .low .low, both .low .low, both .low .low]
   let closing := [both .low .low, both .low .low, both .released .low, both .released .low]
   let answer (header count : Byte) : Nat := if header &&& 0b111#8 = 0b001#8 then 1 + 8 * (count.toNat + 1) else 8
   (∀ header register count rest,
     let cells := header :: register :: count :: rest
     (Wire.exchange cells).drive true =
       opening ++ cell header ++ listens ++ ((register :: count :: rest).map cell).flatten ++
         (List.replicate (answer header count) listens).flatten ++ closing ∧
     (Wire.exchange cells).drive false = opening ++ cell header ++ listens ++ closing) ∧
   (∀ present cause,
     (Wire.recovery cause).drive present = (List.replicate 16 listens).flatten ++ closing ∧
     Wire.attempt.drive present = (List.replicate 16 listens).flatten ++ closing ∧
     Wire.closingMark.drive present = closing ∧ Wire.released.drive present = []) ∧
   (∀ values : List Byte,
     answerOnLine .low ((values.map (fun v => (bits v).map level)).flatten) = .cells values ∧
     ∀ l, answerOnLine .released l = .absent))

/-- The end of an exchange that ends a DIRECT item: ACCEPT gives OK, REJECT gives REJECTED, an absent target NO_DEVICE, and a
read whose check agrees OK with its bytes in the data field; the entry completes into the source of its branch and the engine
goes IDLE (R29, R34, R68 to R70, R78). -/
def Obligations.ExchangeEndCompletesADirectRequest : Prop :=
  ∀ (s : State) (b c : BranchId) (bck bda : Bool) (i : EntryId) (m : Member) (a : Half) (n : Nat), s.stopped = false →
    (s.engine b).state = .exchange → (s.engine b).inService = some ⟨i, 0⟩ → (s.engine b).disablePending = false →
    (s.entry i).state = .active → (s.entry i).members = [m] → m.state = .inService → (s.entry i).posted = false →
    (s.entry i).cancelRequested = false → (s.entry i).group = false → (s.entry i).source = .branch c →
    (s.entry i).address = some a → (s.entry i).length = some n →
    let e := s.entry i
    let ended (data : List Byte) (o : Status) (reply : Reply) :=
      ((s.setEntry i
        { e with
          state := .complete, data := data, status := some o, reply := reply,
          members := [{ m with state := .finished, outcome := some o }] }).joinBranch c i).setEngine b
        { s.engine b with state := .idle, inService := none, copy := none, wire := .released }
    (∀ more, e.kind = 0x02#8 →
      exec (.exchangeEnd b (.cells (0x5A#8 :: more)) bck bda) s = .next (ended e.data .ok (.write a n []))) ∧
    (∀ more, e.kind = 0x02#8 →
      exec (.exchangeEnd b (.cells (0x0F#8 :: more)) bck bda) s = .next (ended e.data .rejected (.write a n []))) ∧
    (e.kind = 0x01#8 ∨ e.kind = 0x02#8 →
      exec (.exchangeEnd b .absent bck bda) s =
        .next (ended e.data .noDevice (if e.kind = 0x01#8 then .read a n none else .write a n []))) ∧
    (∀ value, e.kind = 0x01#8 → value.length = n →
      exec (.exchangeEnd b
          (.cells (value ++ [crc8 ([(m.device <<< 3) ||| 0b001#8, m.register, Byte.ofCount n] ++ value)])) bck bda) s =
        .next (ended value .ok (.read a n (some value))))

/-- The end of an item, whatever its entry. A try that ended with ACCEPT, REJECT or NO_DEVICE finishes its member with that
outcome. A member that finishes, or is dropped, leaves its entry at work while another member is PENDING or IN_SERVICE;
otherwise the entry completes into its own source with the status of its members, or goes FREE if it is a posted write, with
POSTED_FAILED where the status is neither OK nor CANCELLED. The engine then goes IDLE, or carries out a pending disable:
everything on the branch ends with BRANCH_DOWN and it goes DISABLED. A READ whose check agrees stores its bytes and finishes OK,
whatever becomes of its entry and its engine (R28, R29, R34, R35, R40, R78, R81, R90, R111, R114, R118, R125). -/
def Obligations.EndedItemSettlesItsEntryAndItsEngine : Prop :=
  (∀ (s : State) (b : BranchId) (bck bda : Bool) (it : Item) (m : Member) (answer : TargetAnswer), s.stopped = false →
     (s.engine b).state = .exchange → (s.engine b).inService = some it → s.member it = some m →
     let writes := (s.entry it.entry).kind = 0x02#8 ∨ (s.entry it.entry).kind = 0x03#8
     let ends (o : Status) : Prop :=
       exec (.exchangeEnd b answer bck bda) s = .next ((s.finishMember it o).endItem b)
     (answer = .absent → ends .noDevice) ∧ (answer = .rejected → ends .rejected) ∧
     (∀ more, writes → answer = .cells (0x0F#8 :: more) → ends .rejected) ∧
     (∀ more, writes → answer = .cells (0x5A#8 :: more) → ends .ok) ∧
     (∀ value n, (s.entry it.entry).kind = 0x01#8 → (s.entry it.entry).length = some n → value.length = n →
       answer =
         .cells (value ++ [crc8 ([(m.device <<< 3) ||| 0b001#8, m.register, Byte.ofCount n] ++ value)]) →
       exec (.exchangeEnd b answer bck bda) s =
         .next (((s.setEntry it.entry { s.entry it.entry with data := value }).finishMember it .ok).endItem b))) ∧
  (∀ (s : State) (it : Item) (m : Member) (st : MemberState) (o : Status), s.member it = some m →
     (st = .finished ∨ (st = .dropped ∧ o = .dropped)) →
     (s.entry it.entry).state = .queued ∨ (s.entry it.entry).state = .active ∨ (s.entry it.entry).state = .waiting →
     let e := { s.entry it.entry with
       members := (s.entry it.entry).members.set it.member { m with state := st, outcome := some o } }
     let status := e.decidedStatus
     let t := if st = .finished then s.finishMember it o else (s.dropMember it).settle it.entry
     ((∃ x ∈ e.members, x.state = .pending ∨ x.state = .inService) → t = s.setEntry it.entry e) ∧
     ((∀ x ∈ e.members, x.state ≠ .pending ∧ x.state ≠ .inService) →
       (e.posted = false →
         t = (s.setEntry it.entry
           { e with state := .complete, status := some status, reply := e.dataReply status }).setArbiter
           (s.arbiter.join e.source it.entry)) ∧
       (e.posted = true →
         t = if status = .ok ∨ status = .cancelled then s.freeEntry it.entry
           else (s.freeEntry it.entry).hand
             (.postedFailed e.tag status
               (if e.group then e.members.map (fun x => (x.branch, x.outcome.getD .ok)) else []))))) ∧
  (∀ (s : State) (b : BranchId),
     let g := { s.engine b with state := .idle, inService := none, copy := none, wire := .released }
     ((s.engine b).disablePending = false → s.endItem b = s.setEngine b g) ∧
     ((s.engine b).disablePending = true →
       s.endItem b =
         ((s.setEngine b g).flushBranch b .branchDown).setEngine b
           { g with
             queue := [], state := .disabled, disablePending := false, retryTimer := none, recoveryTimer := none }))

/-- A try that ends with BUSY is repeated while its copy's limit allows: after the retry delay, or at once with a new line
sample and a new copy when the delay is 0; a check failure, a status cell of a write that is none of the three or a check of a
read that does not agree, is repeated at once while its own limit allows. With the limit reached, cancel requested or disable
pending, the item ends with BUSY or CHECK_ERROR (R69, R70, R72, R79 to R81). BUSY as an answer to a READ is log entry 31. -/
def Obligations.BusyAndCheckFailureAreRepeatedOrEnd : Prop :=
  ∀ (s : State) (b : BranchId) (bck bda : Bool) (it : Item) (m : Member) (copy : BranchConfig) (answer : TargetAnswer),
    s.stopped = false → (s.engine b).state = .exchange → (s.engine b).inService = some it →
    (s.engine b).copy = some copy → s.member it = some m →
    let g := s.engine b
    let e := s.entry it.entry
    let writes := e.kind = 0x02#8 ∨ e.kind = 0x03#8
    let reads := e.kind = 0x01#8 ∨ e.kind = 0x04#8
    let n := e.length.getD 0
    let lead := [(m.device <<< 3) ||| 0b001#8, m.register, Byte.ofCount n]
    let cell (sent : List Byte) (k : Nat) := sent.getD k 0xFF#8
    let busy := answer = .busy ∨ (writes ∧ ∃ more, answer = .cells (0x33#8 :: more))
    let failed := ∃ sent, answer = .cells sent ∧
      ((writes ∧ cell sent 0 ≠ 0x5A#8 ∧ cell sent 0 ≠ 0x33#8 ∧ cell sent 0 ≠ 0x0F#8) ∨
        (reads ∧ crc8 (lead ++ (List.range n).map (cell sent)) ≠ cell sent n))
    let last := e.cancelRequested = true ∨ g.disablePending = true
    let again (busyUsed checkUsed : Nat) :=
      s.setEngine b
        { g with
          state := if bck = true ∧ bda = true then .exchange else .recovery
          busyUsed := busyUsed, checkUsed := checkUsed, retryTimer := none, copy := some g.config
          wire := if bck = true ∧ bda = true then .exchange (e.sentCells m) else .recovery .beforeTry }
    (busy → ¬ last → g.busyUsed < copy.busyLimit →
      exec (.exchangeEnd b answer bck bda) s =
        .next (if copy.retryDelay = 0 then again (g.busyUsed + 1) g.checkUsed
          else s.setEngine b
            { g with
              state := .retryWait, busyUsed := g.busyUsed + 1, copy := none, wire := .released
              retryTimer := some (copy.retryDelay * 1152000) })) ∧
    (failed → ¬ last → g.checkUsed < copy.checkLimit →
      exec (.exchangeEnd b answer bck bda) s = .next (again g.busyUsed (g.checkUsed + 1))) ∧
    (busy → (last ∨ copy.busyLimit ≤ g.busyUsed) →
      exec (.exchangeEnd b answer bck bda) s = .next ((s.finishMember it .busy).endItem b)) ∧
    (failed → (last ∨ copy.checkLimit ≤ g.checkUsed) →
      exec (.exchangeEnd b answer bck bda) s = .next ((s.finishMember it .checkError).endItem b))

/-- A watch read that gives a value stores it, lowers reads remaining, and compares under the mask: a match ends the watch OK,
the last read without one LIMIT, and otherwise the entry goes WAITING with a timer of its interval. With cancel requested the
member ends OK whatever the value and the entry CANCELLED, carrying the value just read: R37, R81 and R125, with which row 2 of R99
does not agree, log entry 35. With disable pending a watch that would wait completes BRANCH_DOWN with the value just read (R98,
R99, R103, R106). -/
def Obligations.WatchReadMatchesEndsOrWaits : Prop :=
  ∀ (s : State) (b c : BranchId) (bck bda : Bool) (i : EntryId) (m : Member) (a : Half) (n : Nat) (w : WatchRecord)
    (value : List Byte), s.stopped = false →
    (s.engine b).state = .exchange → (s.engine b).inService = some ⟨i, 0⟩ →
    (s.entry i).kind = 0x04#8 → (s.entry i).state = .active → (s.entry i).members = [m] → m.state = .inService →
    (s.entry i).posted = false → (s.entry i).source = .branch c →
    (s.entry i).address = some a → (s.entry i).length = some n → (s.entry i).watch = some w →
    value.length = n → w.mask.length = n → w.pattern.length = n → 0 < w.remaining →
    let e := s.entry i
    let matched := ∀ k, k < n → value.getD k 0#8 &&& w.mask.getD k 0#8 = w.pattern.getD k 0#8 &&& w.mask.getD k 0#8
    let w' : WatchRecord := { w with last := some value, remaining := w.remaining - 1 }
    let complete (o status : Status) : Entry :=
      { e with
        state := .complete, watch := some w', status := some status, reply := .watch a n (some value),
        members := [{ m with state := .finished, outcome := some o }] }
    let ended (o status : Status) := ((s.setEntry i (complete o status)).joinBranch c i).endItem b
    let answer :=
      TargetAnswer.cells (value ++ [crc8 ([(m.device <<< 3) ||| 0b001#8, m.register, Byte.ofCount n] ++ value)])
    (e.cancelRequested = true → exec (.exchangeEnd b answer bck bda) s = .next (ended .ok .cancelled)) ∧
    (e.cancelRequested = false → matched → exec (.exchangeEnd b answer bck bda) s = .next (ended .ok .ok)) ∧
    (e.cancelRequested = false → ¬ matched → w.remaining = 1 →
      exec (.exchangeEnd b answer bck bda) s = .next (ended .limit .limit)) ∧
    (e.cancelRequested = false → ¬ matched → 1 < w.remaining →
      exec (.exchangeEnd b answer bck bda) s =
        .next (((s.setEntry i
          { e with
            state := .waiting, watch := some w',
            members := [{ m with state := .pending, outcome := none }] }).placeTimer i w.interval).endItem b)) ∧
    (e.cancelRequested = false → ¬ matched → 1 < w.remaining → (s.engine b).disablePending = true → m.branch = b →
      s.Placed →
      ∃ t, exec (.exchangeEnd b answer bck bda) s = .next t ∧ t.entry i = complete .branchDown .branchDown ∧
        (t.engine b).state = .disabled ∧ (t.engine b).disablePending = false ∧
        t.timers = s.timers.filter (fun x => !s.timerOn b x))

/-- A placed watch timer stands with its interval among the timers that were there, which keep their order, no later timer ahead
of an earlier one; a timer that runs out leaves the list, its entry goes QUEUED, and its item joins the tail of its branch's
queue (R102 to R104). Where it stands among timers of equal expiry is a free value: log entry 11. -/
def Obligations.WatchTimersStandByExpiryAndRequeue : Prop :=
  (∀ (s : State) (i : EntryId) (interval : Nat), s.TimersSorted →
     ∃ pre post, s.timers = pre ++ post ∧
       s.placeTimer i interval =
         { s with timers := pre ++ ⟨i, interval * 1152000⟩ :: post, freeCount := s.freeCount + 1 } ∧
       (s.placeTimer i interval).TimersSorted) ∧
  (∀ (s : State) (i : EntryId) (m : Member) (more : List Member), s.stopped = false → (∃ x ∈ s.timers, x.entry = i) →
     (s.entry i).state = .waiting → (s.entry i).members = m :: more →
     exec (.watchTimerExpiry i) s =
       .next (((s.setTimers (s.timers.filter (fun x => x.entry != i))).setEntry i
         { s.entry i with state := .queued }).setEngine m.branch
         { s.engine m.branch with queue := (s.engine m.branch).queue ++ [⟨i, 0⟩] }))

/-- A hold that outlasts the hold timeout sends the engine to RECOVERY with its item in service and its copy kept; the running
out of the retry timer begins the repeat with a new copy and a new line sample (R66, R79, R85). -/
def Obligations.HoldAndRetryTimersRunOut : Prop :=
  ∀ (s : State) (b : BranchId) (it : Item) (m : Member), s.stopped = false → (s.engine b).inService = some it →
    s.member it = some m →
    let g := s.engine b
    (g.state = .exchange →
      exec (.holdTimeout b) s =
        .next (s.setEngine b { g with state := .recovery, wire := .recovery .afterHold })) ∧
    (g.state = .retryWait →
      exec (.retryTimerExpiry b true true) s =
        .next (s.setEngine b
          { g with
            state := .exchange, copy := some g.config, retryTimer := none
            wire := .exchange ((s.entry it.entry).sentCells m) })) ∧
    (∀ bck bda, bck = false ∨ bda = false → g.state = .retryWait →
      exec (.retryTimerExpiry b bck bda) s =
        .next (s.setEngine b
          { g with
            state := .recovery, copy := some g.config, retryTimer := none, wire := .recovery .beforeTry }))

/-- A recovery that succeeds. Before a try the opening mark is formed at once, unless cancel requested drops the member, or
disable pending ends it with BRANCH_DOWN. After a hold the item ends with HOLD_TIMEOUT. Without an item, under a SOFT reset, the
engine goes IDLE if enabled and DISABLED if not, or ends a pending disable (R84, R85, R90, R94). The completion test of a
dropped member comes before the end of a pending disable: log entry 34. -/
def Obligations.SuccessfulRecoveryGoesOn : Prop :=
  ∀ (s : State) (b : BranchId), s.stopped = false → (s.engine b).state = .recovery →
    let g := s.engine b
    (∀ it m, g.wire = .recovery .beforeTry → g.inService = some it → s.member it = some m →
      ((s.entry it.entry).cancelRequested = true →
        exec (.recoveryEnd b true true) s = .next (((s.dropMember it).settle it.entry).endItem b)) ∧
      ((s.entry it.entry).cancelRequested = false → g.disablePending = true →
        exec (.recoveryEnd b true true) s = .next ((s.finishMember it .branchDown).endItem b)) ∧
      ((s.entry it.entry).cancelRequested = false → g.disablePending = false →
        exec (.recoveryEnd b true true) s =
          .next (s.setEngine b { g with state := .exchange, wire := .exchange ((s.entry it.entry).sentCells m) }))) ∧
    (∀ it, g.wire = .recovery .afterHold → g.inService = some it →
      exec (.recoveryEnd b true true) s = .next ((s.finishMember it .holdTimeout).endItem b)) ∧
    (∀ i m c a n, g.wire = .recovery .afterHold → g.inService = some ⟨i, 0⟩ → g.disablePending = false →
      (s.entry i).kind = 0x01#8 → (s.entry i).state = .active → (s.entry i).members = [m] →
      (s.entry i).posted = false → (s.entry i).cancelRequested = false → (s.entry i).source = .branch c →
      (s.entry i).address = some a → (s.entry i).length = some n →
      exec (.recoveryEnd b true true) s =
        .next (((s.setEntry i
          { s.entry i with
            state := .complete, status := some .holdTimeout, reply := .read a n none,
            members := [{ m with state := .finished, outcome := some .holdTimeout }] }).joinBranch c i).setEngine b
          { g with state := .idle, inService := none, copy := none, wire := .released })) ∧
    (∀ cause, g.wire = .recovery cause → g.inService = none →
      (g.disablePending = false →
        exec (.recoveryEnd b true true) s =
          .next (s.setEngine b
            { g with
              state := if g.config.enabled then .idle else .disabled, copy := none, wire := .released })) ∧
      (g.disablePending = true →
        exec (.recoveryEnd b true true) s =
          .next ((s.flushBranch b .branchDown).setEngine b
            { g with
              queue := [], state := .disabled, disablePending := false, retryTimer := none, recoveryTimer := none,
              copy := none, wire := .released })))

/-- A failed recovery sends the engine FAULTED, or DISABLED when a disable was pending. In this order the reason is kept, the
item in service ends with BRANCH_FAULT, then the queue and the waiting watches of the branch end with it
(FlushEndsQueueAndWaitingWatches), BRANCH_STATE is handed, and a recovery timer of 100 ms runs for a FAULTED engine. Every
member in service or queued on the branch is FINISHED with BRANCH_FAULT, its entry being freed if it was a posted write that
this completes, and every waiting watch of the branch completes with BRANCH_FAULT and carries its last value (R35, R86, R160). -/
def Obligations.FailedRecoveryFaultsTheBranch : Prop :=
  ∀ (s : State) (b : BranchId) (cause : RecoveryCause) (bck bda : Bool), s.stopped = false →
    (s.engine b).state = .recovery → (s.engine b).wire = .recovery cause → bck = false ∨ bda = false →
    let reason := if cause = .afterHold then BranchReason.hold else .stuckLine
    let g := { s.engine b with lastFault := reason }
    let ended :=
      match g.inService with
      | some it => (s.setEngine b { g with inService := none }).finishMember it .branchFault
      | none => s.setEngine b g
    let t :=
      ((ended.flushBranch b .branchFault).hand (.branchState b .faulted reason)).setEngine b
        { g with
          state := if g.disablePending then .disabled else .faulted
          disablePending := false, inService := none, queue := [], retryTimer := none, copy := none, wire := .released
          recoveryTimer := if g.disablePending then none else some 115200000 }
    exec (.recoveryEnd b bck bda) s = .next t ∧
      (∀ c, c ≠ b → t.engine c = s.engine c) ∧
      ((∀ i, (s.entry i).posted = false) →
        t.notices = s.notices.hand (.branchState b .faulted reason) ∧
        t.timers = s.timers.filter (fun x => !s.timerOn b x)) ∧
      (s.Placed →
        t.timers = s.timers.filter (fun x => !s.timerOn b x) ∧
        (∀ it m, g.inService = some it ∨ it ∈ g.queue → s.member it = some m →
          t.member it = some { m with state := .finished, outcome := some .branchFault } ∨
            ((s.entry it.entry).posted = true ∧ t.entry it.entry = Entry.free)) ∧
        (∀ x m a n w, x ∈ s.timers → s.timerOn b x = true →
          let e := s.entry x.entry
          e.kind = 0x04#8 → e.posted = false → e.cancelRequested = false → e.members = [m] → e.address = some a →
          e.length = some n → e.watch = some w →
          t.entry x.entry =
            { e with
              state := .complete, members := [{ m with state := .finished, outcome := some .branchFault }],
              status := some .branchFault, reply := .watch a n w.last }))

/-- A FAULTED engine attempts recovery when its recovery timer runs out, with a copy taken at the start: success makes it IDLE
with BRANCH_STATE RECOVERED, failure restarts the timer with 100 ms and queues no notice (R87). The closing mark that a FULL
reset formed ends with the lines released, and an engine in EXCHANGE or RECOVERY then goes DISABLED (R93). That what was placed
on its branch meanwhile ends as a disable ends it, that an engine enabled meanwhile goes IDLE, and that one takes no item before
the mark has ended, is log entry 9. -/
def Obligations.PeriodicRecoveryAndResetClosingMark : Prop :=
  (∀ (s : State) (b : BranchId), s.stopped = false → (s.engine b).state = .faulted →
     let g := s.engine b
     (g.recoveryTimer.isSome = true →
       exec (.recoveryTimerExpiry b) s =
         .next (s.setEngine b { g with recoveryTimer := none, copy := some g.config, wire := .attempt })) ∧
     (g.wire = .attempt →
       exec (.periodicRecoveryEnd b true true) s =
         .next ((s.setEngine b { g with state := .idle, copy := none, wire := .released }).hand
           (.branchState b .idle .recovered)) ∧
       ∀ bck bda, bck = false ∨ bda = false →
         exec (.periodicRecoveryEnd b bck bda) s =
           .next (s.setEngine b { g with recoveryTimer := some 115200000, copy := none, wire := .released }))) ∧
  (∀ (s : State) (b : BranchId), s.stopped = false → (s.engine b).wire = .closingMark →
     let g := { s.engine b with wire := .released }
     let active := g.state = .exchange ∨ g.state = .recovery
     (g.state = .disabled ∨ g.state = .idle → exec (.resetClosingMarkEnd b) s = .next (s.setEngine b g)) ∧
     (active → g.config.enabled = true → g.disablePending = false →
       exec (.resetClosingMarkEnd b) s = .next (s.setEngine b { g with state := .idle })) ∧
     (active → g.config.enabled = false ∨ g.disablePending = true →
       exec (.resetClosingMarkEnd b) s =
         .next (((s.setEngine b g).flushBranch b .branchDown).setEngine b
           { g with
             queue := [], state := .disabled, disablePending := false, retryTimer := none, recoveryTimer := none,
             copy := none })) ∧
     ∀ bck bda, exec (.engineTakeItem b bck bda) s = .next s)

/-! ## Completion -/

/-- The status of a group is CANCELLED when a CANCEL marked it or dropped a member of it, OK when every outcome is OK, the
common outcome when all are the same, and PARTIAL otherwise (R115). -/
def Obligations.GroupStatusCombinesTheOutcomes : Prop :=
  ∀ (e : Entry) (outcomes : List Status), outcomes ≠ [] → e.members.map (·.outcome) = outcomes.map some →
    let ended := e.cancelRequested = true ∨ ∃ m ∈ e.members, m.state = .dropped
    (ended → e.decidedStatus = .cancelled) ∧
    (¬ ended → (∀ o ∈ outcomes, o = .ok) → e.decidedStatus = .ok) ∧
    (¬ ended → ∀ o, (∀ x ∈ outcomes, x = o) → e.decidedStatus = o) ∧
    (¬ ended → (¬ ∃ o, ∀ x ∈ outcomes, x = o) → e.decidedStatus = .partialResult)

/-! ## The arbiter and the transmitter -/

/-- A source that is ready while TTXD is idle causes a decision, made for that source alone: in ROUND the source joins the round
set, or begins a new round if it is in it. Where several are ready, one of them is first and the others wait; which is a free
value, log entry 32. A mode that differs from the decision mode first empties the round set (R137 to R141, R147). -/
def Obligations.IdleLineGrantsTheFirstReadySource : Prop :=
  ∀ s : State, s.stopped = false → s.tx = none → s.arbiter.grant = none → s.arbiter.config.legal = true →
    let a := s.arbiter
    let round := if a.decisionMode = a.config.mode then a.roundSet else []
    let granted (u : State) (src : Source) :=
      (u.setArbiter
        { a with
          decisionMode := a.config.mode, grant := some (src, 1)
          roundSet :=
            if a.config.mode = .linear then round else if src ∈ round then [src] else round ++ [src] }).beginFrame src
    (∀ src, s.sourceReady src = true → (∀ x, s.sourceReady x = true → x = src) →
      exec .sourceReadyIdle s = .next (granted s src)) ∧
    (∀ x y, s.sourceReady x = true → s.sourceReady y = true → x ≠ y →
      ∃ src, s.sourceReady src = true ∧
        exec .sourceReadyIdle s = .next (granted { s with freeCount := s.freeCount + 1 } src)) ∧
    ((∀ x, s.sourceReady x = false) → exec .sourceReadyIdle s = .next s)

/-- As a frame begins its head leaves the source queue: an entry goes SENDING, a notice takes the sequence number and the LOST
flag, which is cleared; the frame carries the free count as its credit, which becomes the last-advertised credit, and its
characters are the envelope of R166 around the layouts of Section 12. Each character is on TTXD as a start bit at spacing, eight
data bits least significant first and a stop bit at marking, and is a good one of that value to a receiver that samples it; TTXD
is at marking after the last and while idle (R41, R145, R148, R158, R164, R165, R175, R193). That BAD_REQUEST carries no generation
for a malformed COMMIT or another kind that R4 names is R148 against R4 and R21: log entry 37. -/
def Obligations.FrameBeginsWithCreditAndSequence : Prop :=
  ∀ s : State,
    let credit := 8 - s.rx.inbound.length
    let rx := { s.rx with advertised := credit }
    let line (kind tag : Byte) (body : List Byte) :=
      let covered := Byte.ofCount (body.length + 2) :: kind :: tag :: body
      0xB5#8 :: (covered ++ [Half.high (crc16 covered), Half.low (crc16 covered)])
    (∀ x rest, s.notices.queue = x :: rest →
      s.beginFrame .ntc =
        { s with
          rx := rx, notices := { queue := rest, lost := false, sequence := s.notices.sequence + 1#8 }
          tx := some ⟨.notice,
            line 0x81#8 s.notices.sequence
              ([Byte.ofCount credit, if s.notices.lost then 1#8 else 0#8, x.code] ++ x.bytes)⟩ }) ∧
    (∀ i rest status, s.arbiter.ctlQueue = i :: rest → (s.entry i).state = .complete →
      (s.entry i).status = some status →
      s.beginFrame .ctl =
        { (s.setArbiter { s.arbiter with ctlQueue := rest }).setEntry i { s.entry i with state := .sending } with
          rx := rx
          tx := some ⟨.response i,
            line 0x80#8 (s.entry i).tag
              ([Byte.ofCount credit, (s.entry i).kind, status.code] ++
                if status = .badRequest then [] else (s.entry i).reply.bytes)⟩ }) ∧
    (∀ b i rest status, Table.get s.arbiter.branchQueues b = i :: rest → (s.entry i).state = .complete →
      (s.entry i).status = some status →
      s.beginFrame (.branch b) =
        { (s.setArbiter { s.arbiter with branchQueues := Table.set s.arbiter.branchQueues b rest }).setEntry i
            { s.entry i with state := .sending } with
          rx := rx
          tx := some ⟨.response i,
            line 0x80#8 (s.entry i).tag
              ([Byte.ofCount credit, (s.entry i).kind, status.code] ++
                if status = .badRequest then [] else (s.entry i).reply.bytes)⟩ }) ∧
    let bit (v : Byte) (k : Nat) : Level := if v.getLsbD k then .marking else .spacing
    let data (v : Byte) := [bit v 0, bit v 1, bit v 2, bit v 3, bit v 4, bit v 5, bit v 6, bit v 7]
    let character (v : Byte) := .spacing :: (data v ++ [.marking])
    (∀ x j v k level, s.tx = some x → x.bytes[j]? = some v → (character v)[k]? = some level →
      s.ttxd (10 * j + k) = level) ∧
    (∀ k, (s.tx = none ∨ ∃ x, s.tx = some x ∧ 10 * x.bytes.length ≤ k) → s.ttxd k = .marking) ∧
    (∀ v, sampleCharacter .spacing (data v) .marking = .good v)

/-- What a response carries after its status and a notice after its type, byte by byte: the tables of 12.5 and 12.6 with the
encodings of absent items, two-byte fields high byte first (R193), and the code tables of 12.2, those of the request kinds and
of the notice types among them. -/
def Obligations.RepliesAndNoticesHaveTheirLayouts : Prop :=
  (∀ (a : Half) (n : Nat) (d : List Byte) (l : List (BranchId × Status)),
     (Reply.read a n (some d)).bytes = [a.high, a.low, Byte.ofCount n] ++ d ∧
     (Reply.read a n none).bytes = [a.high, a.low, Byte.ofCount n] ∧
     (Reply.write a n l).bytes =
       [a.high, a.low, Byte.ofCount n, Byte.ofCount l.length] ++
         (l.map (fun x => [Byte.ofCount x.1.val, x.2.code])).flatten ∧
     (Reply.watch a n (some d)).bytes = [a.high, a.low, Byte.ofCount n, 1#8] ++ d ∧
     (Reply.watch a n none).bytes = [a.high, a.low, Byte.ofCount n, 0#8]) ∧
  (∀ (x : Snapshot) (st : Fin 4 → EngineState), (∀ b, Table.get x.branches b = st b) →
     let first := [Byte.ofCount x.inboundFree, Byte.ofCount x.dataInUse, Byte.ofCount x.controlInUse]
     let last :=
       [x.arbiterMode.code, (st 0).code, (st 1).code, (st 2).code, (st 3).code, Byte.ofCount x.noticeDepth,
         if x.lost then 1#8 else 0#8, x.generation.high, x.generation.low]
     (x.commitRemaining = none → (Reply.status x).bytes = first ++ [0#8, 0xFF#8, 0#8, 0#8] ++ last) ∧
     (∀ ms, x.commitRemaining = some ms →
       (Reply.status x).bytes =
         first ++ [1#8, 1#8, Half.high (BitVec.ofNat 16 ms), Half.low (BitVec.ofNat 16 ms)] ++ last)) ∧
  (∀ (g : Half) (slot other : SlotId) (reason : ValidityReason),
     (Reply.commit g none).bytes = [g.high, g.low] ∧
     (Reply.commit g (some ⟨slot, reason, none⟩)).bytes =
       [g.high, g.low, Byte.ofCount slot.val, reason.code, 0xFF#8] ∧
     (Reply.commit g (some ⟨slot, reason, some other⟩)).bytes =
       [g.high, g.low, Byte.ofCount slot.val, reason.code, Byte.ofCount other.val] ∧
     (Reply.discard g).bytes = [g.high, g.low] ∧ (Reply.stageRoute slot).bytes = [Byte.ofCount slot.val]) ∧
  (∀ (bank : BankSelector) (slot : SlotId) (r : Route) (g : Half),
     (Reply.readRoute bank slot r g).bytes =
       [if bank = .active then 0#8 else 1#8, Byte.ofCount slot.val, r.kind.code, r.base.high, r.base.low, r.limit.high,
         r.limit.low,
         (if r.rights.read then 1#8 else 0#8) ||| (if r.rights.write then 2#8 else 0#8) |||
           (if r.rights.watch then 4#8 else 0#8),
         Byte.ofCount r.members.length] ++
       (r.members.map (fun m => [m.branch, m.device, m.base])).flatten ++ [g.high, g.low]) ∧
  (∀ (b : BranchId) (c : BranchConfig) (st : EngineState) (pending : Bool) (depth : Nat) (reason : BranchReason)
     (a : ArbiterConfig) (tag : Byte),
     let flag := if pending then 1#8 else 0#8
     (Reply.setBranch b st pending).bytes = [Byte.ofCount b.val, st.code, flag] ∧
     (Reply.getBranch b c st pending depth reason).bytes =
       [Byte.ofCount b.val, if c.enabled then 1#8 else 0#8, Byte.ofCount c.speed, Byte.ofCount c.hold,
         Byte.ofCount c.busyLimit, Byte.ofCount c.retryDelay, Byte.ofCount c.checkLimit, st.code, flag,
         Byte.ofCount depth, reason.code] ∧
     (Reply.setArbiter a).bytes =
       [a.mode.code, Byte.ofCount a.burst, a.yieldPolicy.code] ++ a.order.map Source.code ∧
     (Reply.cancel tag).bytes = [tag] ∧ (Reply.reset .soft).bytes = [0#8] ∧ (Reply.reset .full).bytes = [1#8]) ∧
  (∀ (cause : ResetCause) (g : Half) (tag kind : Byte) (count : Nat) (reason : LinkReason) (status : Status)
     (l : List (BranchId × Status)) (b : BranchId) (st : EngineState) (why : BranchReason),
     (Notice.ready cause g).bytes = [cause.code, g.high, g.low] ∧
     (Notice.resync (some tag)).bytes = [1#8, tag] ∧ (Notice.resync none).bytes = [0#8, 0#8] ∧
     Notice.credit.bytes = [] ∧ (Notice.overrun tag count).bytes = [tag, Byte.ofCount count] ∧
     (Notice.linkError reason count).bytes = [reason.code, Byte.ofCount count] ∧
     (Notice.postedFailed tag status l).bytes =
       [tag, status.code, Byte.ofCount l.length] ++ (l.map (fun x => [Byte.ofCount x.1.val, x.2.code])).flatten ∧
     (Notice.duplicateTag tag kind).bytes = [tag, kind] ∧
     (Notice.branchState b st why).bytes = [Byte.ofCount b.val, st.code, why.code]) ∧
  (∀ (cause : ResetCause) (g : Half) (tag : Option Byte) (first kind : Byte) (count : Nat) (link : LinkReason)
     (status : Status) (l : List (BranchId × Status)) (b : BranchId) (st : EngineState) (why : BranchReason),
     [Notice.ready cause g, .resync tag, .credit, .overrun first count, .linkError link count,
         .postedFailed first status l, .duplicateTag first kind, .branchState b st why].map Notice.code =
       [0x01#8, 0x02#8, 0x03#8, 0x04#8, 0x05#8, 0x06#8, 0x07#8, 0x08#8]) ∧
  [Kind.read, .write, .writePosted, .watch, .cancel, .identify, .getStatus, .stageRoute, .readRoute, .commit, .discard,
      .setBranch, .getBranch, .setArbiter, .reset].map Kind.code =
    [0x01#8, 0x02#8, 0x03#8, 0x04#8, 0x10#8, 0x11#8, 0x12#8, 0x13#8, 0x14#8, 0x15#8, 0x16#8, 0x17#8, 0x18#8, 0x19#8,
      0x1A#8] ∧
  [Status.ok, .limit, .partialResult, .cancelled, .tooLate, .notFound, .dropped, .badRequest, .noRoute, .accessDenied,
      .range, .branchDown, .noDevice, .busy, .rejected, .checkError, .holdTimeout, .branchFault, .staleGeneration,
      .tableInvalid, .stagingLocked, .commitBusy, .quiesceTimeout].map Status.code =
    [0x00#8, 0x01#8, 0x02#8, 0x03#8, 0x04#8, 0x05#8, 0x06#8, 0x10#8, 0x11#8, 0x12#8, 0x13#8, 0x14#8, 0x20#8, 0x21#8,
      0x22#8, 0x23#8, 0x24#8, 0x25#8, 0x30#8, 0x31#8, 0x32#8, 0x33#8, 0x34#8] ∧
  [EngineState.disabled, .idle, .exchange, .retryWait, .recovery, .faulted].map EngineState.code =
    [0#8, 1#8, 2#8, 3#8, 4#8, 5#8] ∧
  [BranchReason.none, .stuckLine, .hold, .recovered].map BranchReason.code = [0#8, 1#8, 2#8, 3#8] ∧
  [LinkReason.char, .length, .crc, .gap].map LinkReason.code = [1#8, 2#8, 3#8, 4#8] ∧
  [ResetCause.power, .pin, .full, .soft].map ResetCause.code = [1#8, 2#8, 3#8, 4#8] ∧
  [ValidityReason.order, .size, .overlap, .member, .register, .rights].map ValidityReason.code =
    [1#8, 2#8, 3#8, 4#8, 5#8, 6#8] ∧
  [RouteKind.unused, .direct, .group, .deny].map RouteKind.code = [0#8, 1#8, 2#8, 3#8] ∧
  [Source.branch 0, .branch 1, .branch 2, .branch 3, .ctl, .ntc].map Source.code = [0#8, 1#8, 2#8, 3#8, 4#8, 5#8] ∧
  ArbiterMode.linear.code = 0#8 ∧ ArbiterMode.round.code = 1#8 ∧ YieldPolicy.atFrame.code = 0#8 ∧
  YieldPolicy.atBurst.code = 1#8

/-- The end of a frame on TTXD: the entry of a response goes FREE, the count of its class falls and its tag is released; a
notice releases nothing. The arbiter then decides on the sources ready. With none the grant ends and TTXD is idle. What the
release makes due, a drain or the taking of a head, may be taken before the decision: what of it is a free value, log entry 32
(R42, R137 to R139, R146, R147). -/
def Obligations.FrameEndReleasesTheEntry : Prop :=
  ∀ (s : State) (straps : RateCode) (bytes : List Byte), s.stopped = false →
    let a := s.arbiter
    let idle (t : State) : State :=
      { t with
        arbiter :=
          { a with
            grant := none, decisionMode := a.config.mode
            roundSet := if a.decisionMode = a.config.mode then a.roundSet else [] } }
    (∀ i, s.tx = some ⟨.response i, bytes⟩ → (s.entry i).inUse = true → (s.entry i).scope = none →
      let freed := { s with
        tx := none
        table :=
          { entries := Table.set s.table.entries i Entry.free
            dataInUse := if (s.entry i).cls = .data then s.table.dataInUse - 1 else s.table.dataInUse
            controlInUse :=
              if (s.entry i).cls = .data then s.table.controlInUse else s.table.controlInUse - 1 } }
      (freed.drainDue = false → freed.headReady = false →
        exec (.frameEnd straps) s = .next (freed.arbitrate s.sourceReady) ∧
        ((∀ x, s.sourceReady x = false) → exec (.frameEnd straps) s = .next (idle freed))) ∧
      (freed.drainDue = true ∨ freed.headReady = true →
        ∃ l : List Consequence,
          let u := l.foldl State.consequence { freed with freeCount := s.freeCount + 1 }
          exec (.frameEnd straps) s = .next (u.arbitrate u.sourceReady))) ∧
    (s.tx = some ⟨.notice, bytes⟩ →
      exec (.frameEnd straps) s = .next (({ s with tx := none } : State).arbitrate s.sourceReady) ∧
      ((∀ x, s.sourceReady x = false) → exec (.frameEnd straps) s = .next (idle { s with tx := none })))

/-- A decision of the arbiter at the end of a frame. The burst goes on, and its count rises by 1, exactly when the mode has not
changed, the granted source is still ready, the count is below the burst limit, and the yield policy does not end it: under
AT_FRAME, in LINEAR no ready source stands earlier in the order, in ROUND no other ready source is outside the round set.
Otherwise a new grant is made: in LINEAR to the earliest ready source, in ROUND to the earliest ready one outside the round set,
or, when every ready source is in it, to the earliest ready one of a new round. A mode that has changed empties the round set.
The frame may be a notice or the response of an entry whose release makes nothing due (R139 to R143, R147). -/
def Obligations.BurstGoesOnOrANewGrantIsMade : Prop :=
  ∀ (s u : State) (straps : RateCode) (frame : Sending), s.stopped = false → s.tx = some frame →
    s.arbiter.config.legal = true →
    ((frame.what = .notice ∧ u = { s with tx := none }) ∨
      (∃ i, frame.what = .response i ∧ (s.entry i).scope = none ∧ s.rx.inbound = [] ∧
        s.routes.pendingCommit = none ∧ u = ({ s with tx := none } : State).freeEntry i)) →
    let a := s.arbiter
    let order := a.config.order
    let linear := a.config.mode = .linear
    let same := a.decisionMode = a.config.mode
    let round := if same then a.roundSet else []
    let granted (src : Source) (n : Nat) (roundSet : List Source) :=
      (u.setArbiter
        { a with decisionMode := a.config.mode, grant := some (src, n), roundSet := roundSet }).beginFrame src
    let first (pre : List Source) := ∀ x ∈ pre, s.sourceReady x = false
    let goesOn (src : Source) (k : Nat) : Prop :=
      same ∧ a.grant = some (src, k) ∧ s.sourceReady src = true ∧ k < a.config.burst ∧
        (a.config.yieldPolicy = .atBurst ∨
          (linear ∧ ∃ pre post, order = pre ++ src :: post ∧ first pre) ∨
          (¬ linear ∧ ∀ x, x ≠ src → s.sourceReady x = true → x ∈ a.roundSet))
    (∀ src k, goesOn src k → exec (.frameEnd straps) s = .next (granted src (k + 1) a.roundSet)) ∧
    ((∀ src k, ¬ goesOn src k) →
      (∀ pre src post, order = pre ++ src :: post → s.sourceReady src = true →
        (linear → first pre → exec (.frameEnd straps) s = .next (granted src 1 round)) ∧
        (¬ linear → src ∉ round → (∀ x ∈ pre, s.sourceReady x = true → x ∈ round) →
          exec (.frameEnd straps) s = .next (granted src 1 (round ++ [src]))) ∧
        (¬ linear → (∀ x, s.sourceReady x = true → x ∈ round) → first pre →
          exec (.frameEnd straps) s = .next (granted src 1 [src]))) ∧
      ((∀ x, s.sourceReady x = false) →
        exec (.frameEnd straps) s =
          .next (u.setArbiter { a with decisionMode := a.config.mode, grant := none, roundSet := round })))

/-! ## Reset and start-up -/

/-- A SOFT reset takes effect at the end of its RESET's response frame: configuration, banks, generation and sequence counter
stay, every queue, entry, timer and pending commit is gone, engines go on by R94, and READY with cause SOFT is the frame that
begins. The round set is emptied, so that in ROUND the grant of READY leaves NTC alone in it (R5, R43, R48, R94, R107, R151,
R162, R163, R180, R186). An exchange is abandoned for a recovery sequence with a copy taken at its start; a recovery, an attempt
and the closing mark of a FULL reset go on, the last being log entry 9. TRXD at spacing is waited out and timed afresh; a
character in progress there is cut off, and one at marking goes on: log entry 23. That the field breakEnding holds that a break
was on is the model's choice: log entry 14. -/
def Obligations.SoftResetTakesEffect : Prop :=
  ∀ (s : State) (i : EntryId) (bytes : List Byte) (straps : RateCode), s.stopped = false →
    s.tx = some ⟨.response i, bytes⟩ → (s.entry i).scope = some .soft → s.arbiter.config.legal = true →
    ∃ t, exec (.frameEnd straps) s = .next t ∧
      t.table = OutstandingTable.reset ∧ t.timers = [] ∧ t.halt = false ∧
      t.routes = { s.routes with pendingCommit := none } ∧
      t.notices = { queue := [], lost := false, sequence := s.notices.sequence + 1#8 } ∧
      (∃ sent, t.tx = some sent ∧ sent.what = .notice ∧
        sent.bytes.take 10 =
          [0xB5#8, 8#8, 0x81#8, s.notices.sequence, 8#8, 0#8, 0x01#8, 4#8, s.routes.generation.high,
            s.routes.generation.low]) ∧
      t.arbiter =
        { config := s.arbiter.config, decisionMode := s.arbiter.config.mode
          roundSet := if s.arbiter.config.mode = .round then [.ntc] else []
          grant := some (.ntc, 1), branchQueues := Vector.replicate 4 [], ctlQueue := [] } ∧
      t.rx.state = .hunt ∧ t.rx.building = none ∧ t.rx.gap = none ∧ t.rx.inbound = [] ∧ t.rx.advertised = 8 ∧
      t.rx.lastTag = none ∧ t.rx.rate = s.rx.rate ∧
      (t.rx.waiting = true ↔ s.trxd = .spacing) ∧
      t.rx.spacing = (if s.trxd = .spacing then some (2 * characterUnits s.rx.rate) else none) ∧
      (t.rx.inCharacter = true ↔ s.rx.inCharacter = true ∧ s.trxd = .marking) ∧
      (t.rx.cut = true ↔ s.rx.cut = true ∨ (s.rx.inCharacter = true ∧ s.trxd = .spacing)) ∧
      (t.rx.breakEnding = true ↔ s.rx.state = .inBreak) ∧ t.trxd = s.trxd ∧
      t.straps = s.straps ∧
      ∀ b,
        (t.engine b).queue = [] ∧ (t.engine b).inService = none ∧ (t.engine b).retryTimer = none ∧
        (t.engine b).busyUsed = 0 ∧ (t.engine b).checkUsed = 0 ∧
        (t.engine b).config = (s.engine b).config ∧ (t.engine b).lastFault = (s.engine b).lastFault ∧
        (t.engine b).recoveryTimer = (s.engine b).recoveryTimer ∧
        (t.engine b).disablePending = (s.engine b).disablePending ∧
        let abandoned := (s.engine b).state = .exchange ∧ (s.engine b).wire ≠ .closingMark
        (abandoned →
          (t.engine b).state = .recovery ∧ (t.engine b).wire = .recovery .softReset ∧
            (t.engine b).copy = some (s.engine b).config) ∧
        ((s.engine b).state = .retryWait →
          (t.engine b).state = (if (s.engine b).config.enabled then .idle else .disabled) ∧
            (t.engine b).wire = .released ∧ (t.engine b).copy = none) ∧
        (¬ abandoned → (s.engine b).state ≠ .retryWait →
          (t.engine b).state = (s.engine b).state ∧ (t.engine b).wire = (s.engine b).wire ∧
            (t.engine b).copy = (s.engine b).copy)

/-- A FULL reset takes effect at the end of its RESET's response frame: every block holds its power-on values, the rate code is
taken anew, an engine in EXCHANGE or RECOVERY stays there while the closing mark that ends its wire activity is formed, every
other engine is DISABLED, and READY with cause FULL and sequence number 0 begins. TRXD at spacing is waited out and timed afresh
(R5, R43, R48, R93, R107, R151, R162, R163, R180, R186 to R188, R191). A character in progress goes on at the same rate code
with TRXD at marking and is cut off otherwise: log entry 23; the state an engine shows during the closing mark is log entry 9.
That the field breakEnding holds that a break was on is the model's choice: log entry 14. -/
def Obligations.FullResetTakesEffect : Prop :=
  ∀ (s : State) (i : EntryId) (bytes : List Byte) (straps : RateCode), s.stopped = false →
    s.tx = some ⟨.response i, bytes⟩ → (s.entry i).scope = some .full →
    let goesOn := decide (s.trxd = .marking ∧ straps = s.rx.rate)
    let spacing := decide (s.trxd = .spacing)
    ∃ t sent, exec (.frameEnd straps) s = .next t ∧
      t = { State.reset with
        trxd := s.trxd
        straps := straps
        rx := { Receiver.reset straps with
          waiting := spacing
          spacing := if spacing then some (2 * characterUnits straps) else none
          inCharacter := s.rx.inCharacter && goesOn
          cut := s.rx.cut || (s.rx.inCharacter && !goesOn)
          breakEnding := s.rx.state == .inBreak }
        engines := s.engines.map (fun g =>
          { Engine.reset with
            state := if g.state = .exchange ∨ g.state = .recovery then g.state else .disabled
            wire := if g.wire = .released then .released else .closingMark })
        notices := { queue := [], lost := false, sequence := 1#8 }
        arbiter := { Arbiter.reset with grant := some (.ntc, 1) }
        tx := some ⟨.notice, sent⟩
        supply := s.supply
        freeCount := s.freeCount
        pending := s.pending } ∧
      sent.take 10 = [0xB5#8, 8#8, 0x81#8, 0#8, 8#8, 0#8, 0x01#8, 3#8, 0#8, 0#8]

/-- The beginning of the power-on or of the RSTn condition stops the part at once: the frame on TTXD is cut, every branch line
is released, and the character or frame being received is abandoned without LINK_ERROR. Start-up begins when the last of the two
ends: every block holds its power-on values at the rate code just sampled and READY is queued with cause POWER, or PIN when RSTn
was the last to end and no power-on condition arose since the last start-up; while the other condition is present the part stays
stopped. A start-up that finds TRXD at spacing waits for marking and times the spacing afresh (R163, R180, R189 to R191). That
every other block is kept while the part is stopped is log entry 10; the fields breakEnding and cut, false here, are the model's:
log entries 14 and 23. -/
def Obligations.SupplyAndPinStopAndStartThePart : Prop :=
  (∀ s : State,
     let stopped := { s with
       tx := none
       engines := s.engines.map (fun g : Engine => { g with wire := .released })
       rx := { s.rx with
         state := .hunt, building := none, gap := none, spacing := none, inCharacter := false, cut := false,
         breakEnding := false } }
     exec .powerFail s =
       .next { stopped with supply := { s.supply with powerCondition := true, powerSinceStart := true } } ∧
     exec .rstnAssert s = .next { stopped with supply := { s.supply with pinCondition := true } }) ∧
  (∀ (s : State) (straps : RateCode),
     let spacing := decide (s.trxd = .spacing)
     let started (cause : ResetCause) := { State.reset with
       trxd := s.trxd
       straps := straps
       rx := { Receiver.reset straps with
         waiting := spacing, spacing := if spacing then some (2 * characterUnits straps) else none }
       notices := { NoticeUnit.reset with queue := [.ready cause 0#16] }
       freeCount := s.freeCount
       pending := s.pending }
     (s.supply.powerCondition = true → s.supply.pinCondition = false →
       exec (.powerStable straps) s = .next (started .power)) ∧
     (s.supply.powerCondition = true → s.supply.pinCondition = true →
       exec (.powerStable straps) s = .next { s with supply := { s.supply with powerCondition := false } } ∧
       exec (.rstnRelease straps) s = .next { s with supply := { s.supply with pinCondition := false } }) ∧
     (s.supply.powerCondition = false → s.supply.pinCondition = true →
       exec (.rstnRelease straps) s = .next (started (if s.supply.powerSinceStart then .power else .pin))))

/-! ## Invariants -/

/-- Every invariant below holds right after reset. -/
def Obligations.ResetStateIsSound : Prop :=
  State.reset.notices.Sound ∧ State.reset.TableSound ∧ State.reset.routes.Sound ∧ State.reset.ReceiverSound ∧
    State.reset.EnginesSound ∧ State.reset.ArbiterSound ∧ State.reset.TimersSorted ∧ State.reset.Placed

/-- Every step keeps the notice queue within its bounds: at most 8 notices, at most one each of CREDIT, OVERRUN and LINK_ERROR
(R152, R154). -/
def Obligations.StepKeepsTheNoticeQueueSound : Prop :=
  ∀ s t : State, s.notices.Sound → step s = .next t → t.notices.Sound

/-- Every step keeps tags in use distinct, the counts in agreement with the entries, and the DATA entries within 14 (R24, R30,
R42, R45). -/
def Obligations.StepKeepsTheOutstandingTableSound : Prop :=
  ∀ s t : State, s.TableSound → step s = .next t → t.TableSound

/-- Every step keeps the active bank valid, and the staging bank valid while a commit waits (R15, R22). -/
def Obligations.StepKeepsTheActiveBankValid : Prop :=
  ∀ s t : State, s.routes.Sound → step s = .next t → t.routes.Sound

/-- Every step keeps the partial frame and the gap timer in accord with the receive state, and the inbound queue and the
last-advertised credit within 8 (R168, R173, R175); TRXD at spacing in BREAK while the part is not stopped (R177); and the
receiver in HUNT waiting for marking after a reset that found a break on, until TRXD moves or time passes (R180, R188; the field
breakEnding is log entry 14). -/
def Obligations.StepKeepsTheReceiverSound : Prop :=
  ∀ s t : State, s.ReceiverSound → step s = .next t → t.ReceiverSound

/-- Every step keeps the in-service item, the disable-pending flag and the timers of every engine in accord with its state, and
its configuration in range; and, while the part is not stopped, what the FH416 does on the wire and the configuration copy (R74,
R75, R87, R93, R94; the closing mark of a FULL reset beside EXCHANGE and RECOVERY is log entry 9). -/
def Obligations.StepKeepsTheEnginesSound : Prop :=
  ∀ s t : State, s.EnginesSound → step s = .next t → t.EnginesSound

/-- Every step keeps the arbiter configuration legal, a grant only beside a frame on TTXD, and the watch timers in order of
expiry (R102, R136, R137). -/
def Obligations.StepKeepsArbiterAndTimersSound : Prop :=
  ∀ s t : State, s.ArbiterSound → s.TimersSorted → step s = .next t → t.ArbiterSound ∧ t.TimersSorted

/-- Every step keeps the work in its place: items of the branch queues and items in service refer to members that are PENDING
and IN_SERVICE, one item for an entry in a queue; a watch has its timer exactly while it is WAITING; an entry is HELD exactly
while its commit is pending; a COMPLETE entry stands exactly once in the queue of its own source; and the entry on TTXD is
SENDING (R17, R31, R36, R41, R76, R77, R102, R135). A lookup gives distinct branches in a valid bank alone, so the active bank
is valid. -/
def Obligations.StepKeepsTheWorkPlaced : Prop :=
  ∀ s t : State, s.routes.Sound → s.Placed → step s = .next t → t.Placed
end

