-- ==== Sys2Proof/Laws/State.lean ====
section
/-! SUPPORT. One lemma per field per named update of the state, and the reading of an entry and of an engine after each, so
that no proof unfolds a record update. -/

namespace Sys2Proof.Machine

/-! ### setEntry -/

@[simp] theorem State.setEntry_supply (s : State) (i : EntryId) (e : Entry) : (s.setEntry i e).supply = s.supply := rfl
@[simp] theorem State.setEntry_trxd (s : State) (i : EntryId) (e : Entry) : (s.setEntry i e).trxd = s.trxd := rfl
@[simp] theorem State.setEntry_straps (s : State) (i : EntryId) (e : Entry) : (s.setEntry i e).straps = s.straps := rfl
@[simp] theorem State.setEntry_rx (s : State) (i : EntryId) (e : Entry) : (s.setEntry i e).rx = s.rx := rfl
@[simp] theorem State.setEntry_halt (s : State) (i : EntryId) (e : Entry) : (s.setEntry i e).halt = s.halt := rfl
@[simp] theorem State.setEntry_routes (s : State) (i : EntryId) (e : Entry) : (s.setEntry i e).routes = s.routes := rfl
@[simp] theorem State.setEntry_table (s : State) (i : EntryId) (e : Entry) : (s.setEntry i e).table = { s.table with entries := Table.set s.table.entries i e } := rfl
@[simp] theorem State.setEntry_engines (s : State) (i : EntryId) (e : Entry) : (s.setEntry i e).engines = s.engines := rfl
@[simp] theorem State.setEntry_timers (s : State) (i : EntryId) (e : Entry) : (s.setEntry i e).timers = s.timers := rfl
@[simp] theorem State.setEntry_arbiter (s : State) (i : EntryId) (e : Entry) : (s.setEntry i e).arbiter = s.arbiter := rfl
@[simp] theorem State.setEntry_notices (s : State) (i : EntryId) (e : Entry) : (s.setEntry i e).notices = s.notices := rfl
@[simp] theorem State.setEntry_tx (s : State) (i : EntryId) (e : Entry) : (s.setEntry i e).tx = s.tx := rfl
@[simp] theorem State.setEntry_freeCount (s : State) (i : EntryId) (e : Entry) : (s.setEntry i e).freeCount = s.freeCount := rfl
@[simp] theorem State.setEntry_pending (s : State) (i : EntryId) (e : Entry) : (s.setEntry i e).pending = s.pending := rfl
@[simp] theorem State.setEntry_stopped (s : State) (i : EntryId) (e : Entry) : (s.setEntry i e).stopped = s.stopped := rfl
@[simp] theorem State.setEntry_engine (s : State) (i : EntryId) (e : Entry) (c : BranchId) : (s.setEntry i e).engine c = s.engine c := rfl

/-! ### setEngine -/

@[simp] theorem State.setEngine_supply (s : State) (b : BranchId) (g : Engine) : (s.setEngine b g).supply = s.supply := rfl
@[simp] theorem State.setEngine_trxd (s : State) (b : BranchId) (g : Engine) : (s.setEngine b g).trxd = s.trxd := rfl
@[simp] theorem State.setEngine_straps (s : State) (b : BranchId) (g : Engine) : (s.setEngine b g).straps = s.straps := rfl
@[simp] theorem State.setEngine_rx (s : State) (b : BranchId) (g : Engine) : (s.setEngine b g).rx = s.rx := rfl
@[simp] theorem State.setEngine_halt (s : State) (b : BranchId) (g : Engine) : (s.setEngine b g).halt = s.halt := rfl
@[simp] theorem State.setEngine_routes (s : State) (b : BranchId) (g : Engine) : (s.setEngine b g).routes = s.routes := rfl
@[simp] theorem State.setEngine_table (s : State) (b : BranchId) (g : Engine) : (s.setEngine b g).table = s.table := rfl
@[simp] theorem State.setEngine_engines (s : State) (b : BranchId) (g : Engine) : (s.setEngine b g).engines = Table.set s.engines b g := rfl
@[simp] theorem State.setEngine_timers (s : State) (b : BranchId) (g : Engine) : (s.setEngine b g).timers = s.timers := rfl
@[simp] theorem State.setEngine_arbiter (s : State) (b : BranchId) (g : Engine) : (s.setEngine b g).arbiter = s.arbiter := rfl
@[simp] theorem State.setEngine_notices (s : State) (b : BranchId) (g : Engine) : (s.setEngine b g).notices = s.notices := rfl
@[simp] theorem State.setEngine_tx (s : State) (b : BranchId) (g : Engine) : (s.setEngine b g).tx = s.tx := rfl
@[simp] theorem State.setEngine_freeCount (s : State) (b : BranchId) (g : Engine) : (s.setEngine b g).freeCount = s.freeCount := rfl
@[simp] theorem State.setEngine_pending (s : State) (b : BranchId) (g : Engine) : (s.setEngine b g).pending = s.pending := rfl
@[simp] theorem State.setEngine_stopped (s : State) (b : BranchId) (g : Engine) : (s.setEngine b g).stopped = s.stopped := rfl
@[simp] theorem State.setEngine_entry (s : State) (b : BranchId) (g : Engine) (j : EntryId) : (s.setEngine b g).entry j = s.entry j := rfl

/-! ### setRx -/

@[simp] theorem State.setRx_supply (s : State) (rx : Receiver) : (s.setRx rx).supply = s.supply := rfl
@[simp] theorem State.setRx_trxd (s : State) (rx : Receiver) : (s.setRx rx).trxd = s.trxd := rfl
@[simp] theorem State.setRx_straps (s : State) (rx : Receiver) : (s.setRx rx).straps = s.straps := rfl
@[simp] theorem State.setRx_rx (s : State) (rx : Receiver) : (s.setRx rx).rx = rx := rfl
@[simp] theorem State.setRx_halt (s : State) (rx : Receiver) : (s.setRx rx).halt = s.halt := rfl
@[simp] theorem State.setRx_routes (s : State) (rx : Receiver) : (s.setRx rx).routes = s.routes := rfl
@[simp] theorem State.setRx_table (s : State) (rx : Receiver) : (s.setRx rx).table = s.table := rfl
@[simp] theorem State.setRx_engines (s : State) (rx : Receiver) : (s.setRx rx).engines = s.engines := rfl
@[simp] theorem State.setRx_timers (s : State) (rx : Receiver) : (s.setRx rx).timers = s.timers := rfl
@[simp] theorem State.setRx_arbiter (s : State) (rx : Receiver) : (s.setRx rx).arbiter = s.arbiter := rfl
@[simp] theorem State.setRx_notices (s : State) (rx : Receiver) : (s.setRx rx).notices = s.notices := rfl
@[simp] theorem State.setRx_tx (s : State) (rx : Receiver) : (s.setRx rx).tx = s.tx := rfl
@[simp] theorem State.setRx_freeCount (s : State) (rx : Receiver) : (s.setRx rx).freeCount = s.freeCount := rfl
@[simp] theorem State.setRx_pending (s : State) (rx : Receiver) : (s.setRx rx).pending = s.pending := rfl
@[simp] theorem State.setRx_stopped (s : State) (rx : Receiver) : (s.setRx rx).stopped = s.stopped := rfl
@[simp] theorem State.setRx_entry (s : State) (rx : Receiver) (j : EntryId) : (s.setRx rx).entry j = s.entry j := rfl
@[simp] theorem State.setRx_engine (s : State) (rx : Receiver) (c : BranchId) : (s.setRx rx).engine c = s.engine c := rfl

/-! ### setRoutes -/

@[simp] theorem State.setRoutes_supply (s : State) (r : RouteUnit) : (s.setRoutes r).supply = s.supply := rfl
@[simp] theorem State.setRoutes_trxd (s : State) (r : RouteUnit) : (s.setRoutes r).trxd = s.trxd := rfl
@[simp] theorem State.setRoutes_straps (s : State) (r : RouteUnit) : (s.setRoutes r).straps = s.straps := rfl
@[simp] theorem State.setRoutes_rx (s : State) (r : RouteUnit) : (s.setRoutes r).rx = s.rx := rfl
@[simp] theorem State.setRoutes_halt (s : State) (r : RouteUnit) : (s.setRoutes r).halt = s.halt := rfl
@[simp] theorem State.setRoutes_routes (s : State) (r : RouteUnit) : (s.setRoutes r).routes = r := rfl
@[simp] theorem State.setRoutes_table (s : State) (r : RouteUnit) : (s.setRoutes r).table = s.table := rfl
@[simp] theorem State.setRoutes_engines (s : State) (r : RouteUnit) : (s.setRoutes r).engines = s.engines := rfl
@[simp] theorem State.setRoutes_timers (s : State) (r : RouteUnit) : (s.setRoutes r).timers = s.timers := rfl
@[simp] theorem State.setRoutes_arbiter (s : State) (r : RouteUnit) : (s.setRoutes r).arbiter = s.arbiter := rfl
@[simp] theorem State.setRoutes_notices (s : State) (r : RouteUnit) : (s.setRoutes r).notices = s.notices := rfl
@[simp] theorem State.setRoutes_tx (s : State) (r : RouteUnit) : (s.setRoutes r).tx = s.tx := rfl
@[simp] theorem State.setRoutes_freeCount (s : State) (r : RouteUnit) : (s.setRoutes r).freeCount = s.freeCount := rfl
@[simp] theorem State.setRoutes_pending (s : State) (r : RouteUnit) : (s.setRoutes r).pending = s.pending := rfl
@[simp] theorem State.setRoutes_stopped (s : State) (r : RouteUnit) : (s.setRoutes r).stopped = s.stopped := rfl
@[simp] theorem State.setRoutes_entry (s : State) (r : RouteUnit) (j : EntryId) : (s.setRoutes r).entry j = s.entry j := rfl
@[simp] theorem State.setRoutes_engine (s : State) (r : RouteUnit) (c : BranchId) : (s.setRoutes r).engine c = s.engine c := rfl

/-! ### setArbiter -/

@[simp] theorem State.setArbiter_supply (s : State) (a : Arbiter) : (s.setArbiter a).supply = s.supply := rfl
@[simp] theorem State.setArbiter_trxd (s : State) (a : Arbiter) : (s.setArbiter a).trxd = s.trxd := rfl
@[simp] theorem State.setArbiter_straps (s : State) (a : Arbiter) : (s.setArbiter a).straps = s.straps := rfl
@[simp] theorem State.setArbiter_rx (s : State) (a : Arbiter) : (s.setArbiter a).rx = s.rx := rfl
@[simp] theorem State.setArbiter_halt (s : State) (a : Arbiter) : (s.setArbiter a).halt = s.halt := rfl
@[simp] theorem State.setArbiter_routes (s : State) (a : Arbiter) : (s.setArbiter a).routes = s.routes := rfl
@[simp] theorem State.setArbiter_table (s : State) (a : Arbiter) : (s.setArbiter a).table = s.table := rfl
@[simp] theorem State.setArbiter_engines (s : State) (a : Arbiter) : (s.setArbiter a).engines = s.engines := rfl
@[simp] theorem State.setArbiter_timers (s : State) (a : Arbiter) : (s.setArbiter a).timers = s.timers := rfl
@[simp] theorem State.setArbiter_arbiter (s : State) (a : Arbiter) : (s.setArbiter a).arbiter = a := rfl
@[simp] theorem State.setArbiter_notices (s : State) (a : Arbiter) : (s.setArbiter a).notices = s.notices := rfl
@[simp] theorem State.setArbiter_tx (s : State) (a : Arbiter) : (s.setArbiter a).tx = s.tx := rfl
@[simp] theorem State.setArbiter_freeCount (s : State) (a : Arbiter) : (s.setArbiter a).freeCount = s.freeCount := rfl
@[simp] theorem State.setArbiter_pending (s : State) (a : Arbiter) : (s.setArbiter a).pending = s.pending := rfl
@[simp] theorem State.setArbiter_stopped (s : State) (a : Arbiter) : (s.setArbiter a).stopped = s.stopped := rfl
@[simp] theorem State.setArbiter_entry (s : State) (a : Arbiter) (j : EntryId) : (s.setArbiter a).entry j = s.entry j := rfl
@[simp] theorem State.setArbiter_engine (s : State) (a : Arbiter) (c : BranchId) : (s.setArbiter a).engine c = s.engine c := rfl

/-! ### setNotices -/

@[simp] theorem State.setNotices_supply (s : State) (n : NoticeUnit) : (s.setNotices n).supply = s.supply := rfl
@[simp] theorem State.setNotices_trxd (s : State) (n : NoticeUnit) : (s.setNotices n).trxd = s.trxd := rfl
@[simp] theorem State.setNotices_straps (s : State) (n : NoticeUnit) : (s.setNotices n).straps = s.straps := rfl
@[simp] theorem State.setNotices_rx (s : State) (n : NoticeUnit) : (s.setNotices n).rx = s.rx := rfl
@[simp] theorem State.setNotices_halt (s : State) (n : NoticeUnit) : (s.setNotices n).halt = s.halt := rfl
@[simp] theorem State.setNotices_routes (s : State) (n : NoticeUnit) : (s.setNotices n).routes = s.routes := rfl
@[simp] theorem State.setNotices_table (s : State) (n : NoticeUnit) : (s.setNotices n).table = s.table := rfl
@[simp] theorem State.setNotices_engines (s : State) (n : NoticeUnit) : (s.setNotices n).engines = s.engines := rfl
@[simp] theorem State.setNotices_timers (s : State) (n : NoticeUnit) : (s.setNotices n).timers = s.timers := rfl
@[simp] theorem State.setNotices_arbiter (s : State) (n : NoticeUnit) : (s.setNotices n).arbiter = s.arbiter := rfl
@[simp] theorem State.setNotices_notices (s : State) (n : NoticeUnit) : (s.setNotices n).notices = n := rfl
@[simp] theorem State.setNotices_tx (s : State) (n : NoticeUnit) : (s.setNotices n).tx = s.tx := rfl
@[simp] theorem State.setNotices_freeCount (s : State) (n : NoticeUnit) : (s.setNotices n).freeCount = s.freeCount := rfl
@[simp] theorem State.setNotices_pending (s : State) (n : NoticeUnit) : (s.setNotices n).pending = s.pending := rfl
@[simp] theorem State.setNotices_stopped (s : State) (n : NoticeUnit) : (s.setNotices n).stopped = s.stopped := rfl
@[simp] theorem State.setNotices_entry (s : State) (n : NoticeUnit) (j : EntryId) : (s.setNotices n).entry j = s.entry j := rfl
@[simp] theorem State.setNotices_engine (s : State) (n : NoticeUnit) (c : BranchId) : (s.setNotices n).engine c = s.engine c := rfl

/-! ### setTimers -/

@[simp] theorem State.setTimers_supply (s : State) (l : List WatchTimer) : (s.setTimers l).supply = s.supply := rfl
@[simp] theorem State.setTimers_trxd (s : State) (l : List WatchTimer) : (s.setTimers l).trxd = s.trxd := rfl
@[simp] theorem State.setTimers_straps (s : State) (l : List WatchTimer) : (s.setTimers l).straps = s.straps := rfl
@[simp] theorem State.setTimers_rx (s : State) (l : List WatchTimer) : (s.setTimers l).rx = s.rx := rfl
@[simp] theorem State.setTimers_halt (s : State) (l : List WatchTimer) : (s.setTimers l).halt = s.halt := rfl
@[simp] theorem State.setTimers_routes (s : State) (l : List WatchTimer) : (s.setTimers l).routes = s.routes := rfl
@[simp] theorem State.setTimers_table (s : State) (l : List WatchTimer) : (s.setTimers l).table = s.table := rfl
@[simp] theorem State.setTimers_engines (s : State) (l : List WatchTimer) : (s.setTimers l).engines = s.engines := rfl
@[simp] theorem State.setTimers_timers (s : State) (l : List WatchTimer) : (s.setTimers l).timers = l := rfl
@[simp] theorem State.setTimers_arbiter (s : State) (l : List WatchTimer) : (s.setTimers l).arbiter = s.arbiter := rfl
@[simp] theorem State.setTimers_notices (s : State) (l : List WatchTimer) : (s.setTimers l).notices = s.notices := rfl
@[simp] theorem State.setTimers_tx (s : State) (l : List WatchTimer) : (s.setTimers l).tx = s.tx := rfl
@[simp] theorem State.setTimers_freeCount (s : State) (l : List WatchTimer) : (s.setTimers l).freeCount = s.freeCount := rfl
@[simp] theorem State.setTimers_pending (s : State) (l : List WatchTimer) : (s.setTimers l).pending = s.pending := rfl
@[simp] theorem State.setTimers_stopped (s : State) (l : List WatchTimer) : (s.setTimers l).stopped = s.stopped := rfl
@[simp] theorem State.setTimers_entry (s : State) (l : List WatchTimer) (j : EntryId) : (s.setTimers l).entry j = s.entry j := rfl
@[simp] theorem State.setTimers_engine (s : State) (l : List WatchTimer) (c : BranchId) : (s.setTimers l).engine c = s.engine c := rfl

/-! ### hand -/

@[simp] theorem State.hand_supply (s : State) (x : Notice) : (s.hand x).supply = s.supply := rfl
@[simp] theorem State.hand_trxd (s : State) (x : Notice) : (s.hand x).trxd = s.trxd := rfl
@[simp] theorem State.hand_straps (s : State) (x : Notice) : (s.hand x).straps = s.straps := rfl
@[simp] theorem State.hand_rx (s : State) (x : Notice) : (s.hand x).rx = s.rx := rfl
@[simp] theorem State.hand_halt (s : State) (x : Notice) : (s.hand x).halt = s.halt := rfl
@[simp] theorem State.hand_routes (s : State) (x : Notice) : (s.hand x).routes = s.routes := rfl
@[simp] theorem State.hand_table (s : State) (x : Notice) : (s.hand x).table = s.table := rfl
@[simp] theorem State.hand_engines (s : State) (x : Notice) : (s.hand x).engines = s.engines := rfl
@[simp] theorem State.hand_timers (s : State) (x : Notice) : (s.hand x).timers = s.timers := rfl
@[simp] theorem State.hand_arbiter (s : State) (x : Notice) : (s.hand x).arbiter = s.arbiter := rfl
@[simp] theorem State.hand_notices (s : State) (x : Notice) : (s.hand x).notices = s.notices.hand x := rfl
@[simp] theorem State.hand_tx (s : State) (x : Notice) : (s.hand x).tx = s.tx := rfl
@[simp] theorem State.hand_freeCount (s : State) (x : Notice) : (s.hand x).freeCount = s.freeCount := rfl
@[simp] theorem State.hand_pending (s : State) (x : Notice) : (s.hand x).pending = s.pending := rfl
@[simp] theorem State.hand_stopped (s : State) (x : Notice) : (s.hand x).stopped = s.stopped := rfl
@[simp] theorem State.hand_entry (s : State) (x : Notice) (j : EntryId) : (s.hand x).entry j = s.entry j := rfl
@[simp] theorem State.hand_engine (s : State) (x : Notice) (c : BranchId) : (s.hand x).engine c = s.engine c := rfl

/-! ### Reading back -/

theorem State.setEntry_entry (s : State) (i j : EntryId) (e : Entry) :
    (s.setEntry i e).entry j = if j = i then e else s.entry j := Table.get_set _ _ _ _

@[simp] theorem State.setEntry_entry_self (s : State) (i : EntryId) (e : Entry) : (s.setEntry i e).entry i = e := by
  simp [State.setEntry_entry]

@[simp] theorem State.setEntry_entry_ne (s : State) {i j : EntryId} (e : Entry) (h : j ≠ i) :
    (s.setEntry i e).entry j = s.entry j := by
  simp [State.setEntry_entry, h]

theorem State.setEngine_engine (s : State) (b c : BranchId) (g : Engine) :
    (s.setEngine b g).engine c = if c = b then g else s.engine c := Table.get_set _ _ _ _

@[simp] theorem State.setEngine_engine_self (s : State) (b : BranchId) (g : Engine) : (s.setEngine b g).engine b = g := by
  simp [State.setEngine_engine]

@[simp] theorem State.setEngine_engine_ne (s : State) {b c : BranchId} (g : Engine) (h : c ≠ b) :
    (s.setEngine b g).engine c = s.engine c := by
  simp [State.setEngine_engine, h]

/-! ### The last of two updates counts -/

@[simp] theorem State.setEntry_setEntry (s : State) (i : EntryId) (e f : Entry) :
    (s.setEntry i e).setEntry i f = s.setEntry i f := by
  simp [State.setEntry, Table.set]

@[simp] theorem State.setEngine_setEngine (s : State) (b : BranchId) (g h : Engine) :
    (s.setEngine b g).setEngine b h = s.setEngine b h := by
  simp [State.setEngine, Table.set]

theorem State.setEngine_setEntry (s : State) (b : BranchId) (g : Engine) (i : EntryId) (e : Entry) :
    (s.setEngine b g).setEntry i e = (s.setEntry i e).setEngine b g := rfl

end Sys2Proof.Machine
end

