-- ==== Sys2Proof/Laws/Ops.lean ====
section
/-! SUPPORT. What each shared operation of Machine/Ops.lean can do, said once. Every operation that finishes work is made of
seven elementary updates: a relation closed under those (`State.Closed`) holds from before each operation to after it. The
first such relation is `State.OnlyWork`: the trunk link, the route table, the halt flag and the arbiter's choices are left
alone. Then what each operation leaves of the engines. -/

namespace Sys2Proof.Machine

/-! ## Closed relations -/

/-- A reflexive and transitive relation that every elementary update keeps. -/
structure State.Closed (R : State → State → Prop) : Prop where
  refl : ∀ s, R s s
  trans : ∀ {s t u}, R s t → R t u → R s u
  setEntry : ∀ s i e, R s (s.setEntry i e)
  setEngine : ∀ s b g, R s (s.setEngine b g)
  setTimers : ∀ s l, R s (s.setTimers l)
  placeTimer : ∀ s i n, R s (s.placeTimer i n)
  hand : ∀ s x, R s (s.hand x)
  join : ∀ s src i, R s (s.setArbiter (s.arbiter.join src i))
  freeEntry : ∀ s i, R s (s.freeEntry i)

namespace State.Closed

variable {R : State → State → Prop}

theorem foldl (h : Closed R) {α : Type} {f : State → α → State} (hf : ∀ (s : State) a, R s (f s a)) :
    ∀ (l : List α) (s : State), R s (l.foldl f s)
  | [], s => h.refl s
  | a :: l, s => h.trans (hf s a) (h.foldl hf l (f s a))

theorem completeEntry (h : Closed R) (s : State) (i : EntryId) (st : Status) (r : Reply) :
    R s (s.completeEntry i st r) := h.trans (h.setEntry s i _) (h.join (s.setEntry i _) (s.entry i).source i)

theorem endPosted (h : Closed R) (s : State) (i : EntryId) (st : Status) : R s (s.endPosted i st) := by
  unfold State.endPosted
  simp only
  split
  · exact h.freeEntry s i
  · exact h.trans (h.freeEntry s i) (h.hand _ _)

theorem finishEntry (h : Closed R) (s : State) (i : EntryId) : R s (s.finishEntry i) := by
  unfold State.finishEntry
  simp only
  split
  · exact h.endPosted s i _
  · exact h.completeEntry s i _ _

theorem settle (h : Closed R) (s : State) (i : EntryId) : R s (s.settle i) := by
  unfold State.settle
  simp only
  split
  any_goals exact h.refl s
  all_goals
    split
    · exact h.refl s
    · exact h.finishEntry s i

theorem setMember (h : Closed R) (s : State) (it : Item) (st : MemberState) (o : Option Status) :
    R s (s.setMember it st o) := h.setEntry s _ _

theorem finishMember (h : Closed R) (s : State) (it : Item) (o : Status) : R s (s.finishMember it o) :=
  h.trans (h.setMember s it _ _) (h.settle _ _)

theorem dropMember (h : Closed R) (s : State) (it : Item) : R s (s.dropMember it) := h.setMember s it _ _

theorem serveMember (h : Closed R) (s : State) (it : Item) : R s (s.serveMember it) := h.setEntry s _ _

theorem removeTimer (h : Closed R) (s : State) (i : EntryId) : R s (s.removeTimer i) := h.setTimers s _

theorem waitAgain (h : Closed R) (s : State) (it : Item) (n : Nat) : R s (s.waitAgain it n) :=
  h.trans (h.setEntry s _ _) (h.placeTimer _ _ _)

theorem endWatchRead (h : Closed R) (s : State) (it : Item) (v : List Byte) : R s (s.endWatchRead it v) := by
  unfold State.endWatchRead
  split
  · exact h.finishMember s it _
  · rename_i w _
    have k := h.setEntry s it.entry { s.entry it.entry with watch := some (w.after v) }
    simp only
    split
    · exact h.trans k (h.finishMember _ _ _)
    · exact h.trans k (h.waitAgain _ _ _)

theorem appendItem (h : Closed R) (s : State) (b : BranchId) (it : Item) : R s (s.appendItem b it) :=
  h.setEngine s _ _

theorem flushBranch (h : Closed R) (s : State) (b : BranchId) (o : Status) : R s (s.flushBranch b o) := by
  unfold State.flushBranch
  simp only
  exact h.trans (h.trans (h.trans (h.setEngine s b _) (h.setTimers _ _))
    (h.foldl (fun s it => h.finishMember s it o) _ _)) (h.foldl (fun s t => h.finishMember s _ o) _ _)

theorem carryOutDisable (h : Closed R) (s : State) (b : BranchId) : R s (s.carryOutDisable b) :=
  h.trans (h.flushBranch s b _) (h.setEngine _ _ _)

theorem endItem (h : Closed R) (s : State) (b : BranchId) : R s (s.endItem b) := by
  unfold State.endItem
  simp only
  split
  · exact h.trans (h.setEngine s b _) (h.carryOutDisable _ _)
  · exact h.setEngine s b _

theorem dismiss (h : Closed R) (s : State) (b : BranchId) (o : Status) : R s (s.dismiss b o) := by
  unfold State.dismiss
  split
  · exact h.refl s
  · exact h.trans (h.setEngine s b _) (h.finishMember _ _ _)

theorem fault (h : Closed R) (s : State) (b : BranchId) (r : BranchReason) : R s (s.fault b r) :=
  h.trans (h.trans (h.trans (h.trans (h.setEngine s b _) (h.dismiss _ b .branchFault))
    (h.flushBranch _ b .branchFault)) (h.hand _ (.branchState b .faulted r))) (h.setEngine _ b _)

end State.Closed

/-! ## Nothing but work -/

/-- Only entries, engines, watch timers, notices, source queues and free values may differ. -/
structure State.OnlyWork (s t : State) : Prop where
  supply : t.supply = s.supply
  trxd : t.trxd = s.trxd
  straps : t.straps = s.straps
  rx : t.rx = s.rx
  halt : t.halt = s.halt
  routes : t.routes = s.routes
  tx : t.tx = s.tx
  pending : t.pending = s.pending
  config : t.arbiter.config = s.arbiter.config
  decisionMode : t.arbiter.decisionMode = s.arbiter.decisionMode
  roundSet : t.arbiter.roundSet = s.arbiter.roundSet
  grant : t.arbiter.grant = s.arbiter.grant

theorem Arbiter.join_choices (a : Arbiter) (src : Source) (i : EntryId) :
    (a.join src i).config = a.config ∧ (a.join src i).decisionMode = a.decisionMode ∧
      (a.join src i).roundSet = a.roundSet ∧ (a.join src i).grant = a.grant := by
  cases src <;> exact ⟨rfl, rfl, rfl, rfl⟩

theorem State.onlyWork_closed : State.Closed State.OnlyWork where
  refl _ := by constructor <;> rfl
  trans h k :=
    ⟨k.supply.trans h.supply, k.trxd.trans h.trxd, k.straps.trans h.straps, k.rx.trans h.rx, k.halt.trans h.halt,
      k.routes.trans h.routes, k.tx.trans h.tx, k.pending.trans h.pending, k.config.trans h.config,
      k.decisionMode.trans h.decisionMode, k.roundSet.trans h.roundSet, k.grant.trans h.grant⟩
  setEntry _ _ _ := by constructor <;> rfl
  setEngine _ _ _ := by constructor <;> rfl
  setTimers _ _ := by constructor <;> rfl
  placeTimer _ _ _ := by constructor <;> rfl
  hand _ _ := by constructor <;> rfl
  join s src i :=
    have h := s.arbiter.join_choices src i
    ⟨rfl, rfl, rfl, rfl, rfl, rfl, rfl, rfl, h.1, h.2.1, h.2.2.1, h.2.2.2⟩
  freeEntry s i := by
    unfold State.freeEntry
    split <;> constructor <;> rfl

theorem State.OnlyWork.stopped {s t : State} (h : s.OnlyWork t) : t.stopped = s.stopped := by
  simp [State.stopped, h.supply]

/-! ## Engines -/

@[simp] theorem State.freeEntry_engines (s : State) (i : EntryId) : (s.freeEntry i).engines = s.engines := by
  unfold State.freeEntry; split <;> rfl

@[simp] theorem State.completeEntry_engines (s : State) (i : EntryId) (st : Status) (r : Reply) :
    (s.completeEntry i st r).engines = s.engines := rfl

@[simp] theorem State.endPosted_engines (s : State) (i : EntryId) (st : Status) :
    (s.endPosted i st).engines = s.engines := by
  unfold State.endPosted; simp only; split <;> simp

@[simp] theorem State.finishEntry_engines (s : State) (i : EntryId) : (s.finishEntry i).engines = s.engines := by
  unfold State.finishEntry; simp only; split <;> simp

@[simp] theorem State.settle_engines (s : State) (i : EntryId) : (s.settle i).engines = s.engines := by
  unfold State.settle; simp only; split <;> (try split) <;> simp

@[simp] theorem State.setMember_engines (s : State) (it : Item) (st : MemberState) (o : Option Status) :
    (s.setMember it st o).engines = s.engines := rfl

@[simp] theorem State.finishMember_engines (s : State) (it : Item) (o : Status) :
    (s.finishMember it o).engines = s.engines := by simp [State.finishMember]

@[simp] theorem State.dropMember_engines (s : State) (it : Item) : (s.dropMember it).engines = s.engines := rfl

@[simp] theorem State.serveMember_engines (s : State) (it : Item) : (s.serveMember it).engines = s.engines := rfl

@[simp] theorem State.placeTimer_engines (s : State) (i : EntryId) (n : Nat) :
    (s.placeTimer i n).engines = s.engines := rfl

@[simp] theorem State.removeTimer_engines (s : State) (i : EntryId) : (s.removeTimer i).engines = s.engines := rfl

@[simp] theorem State.waitAgain_engines (s : State) (it : Item) (n : Nat) :
    (s.waitAgain it n).engines = s.engines := rfl

@[simp] theorem State.endWatchRead_engines (s : State) (it : Item) (v : List Byte) :
    (s.endWatchRead it v).engines = s.engines := by
  unfold State.endWatchRead
  split
  · simp
  · simp only
    split <;> simp

/-- A good read without cancel requested ends the watch as R99 gives. -/
theorem WatchRecord.outcome_of_not_cancelled (w : WatchRecord) (v : List Byte) :
    w.outcome v false =
      if w.accepts v then some .ok else if (w.after v).remaining = 0 then some .limit else none := by
  simp [WatchRecord.outcome]

/-- A good read with cancel requested ends the member OK (R37, R125). -/
theorem WatchRecord.outcome_of_cancelled (w : WatchRecord) (v : List Byte) : w.outcome v true = some .ok := by
  simp [WatchRecord.outcome]

theorem State.foldl_engines {α : Type} {f : State → α → State} (hf : ∀ s a, (f s a).engines = s.engines) :
    ∀ (l : List α) (s : State), (l.foldl f s).engines = s.engines
  | [], _ => rfl
  | a :: l, s => by rw [List.foldl_cons, State.foldl_engines hf l, hf]

/-- An engine is a place of the engine table. -/
theorem State.engine_eq (s t : State) (b : BranchId) (h : t.engines = s.engines) : t.engine b = s.engine b := by
  simp [State.engine, h]

/-- A flush empties the queue of its branch and touches no other engine. -/
theorem State.flushBranch_engine (s : State) (b c : BranchId) (o : Status) :
    (s.flushBranch b o).engine c = if c = b then { s.engine b with queue := [] } else s.engine c := by
  have h : (s.flushBranch b o).engines = (s.setEngine b { s.engine b with queue := [] }).engines := by
    unfold State.flushBranch
    simp only
    rw [State.foldl_engines (fun s t => State.finishMember_engines s _ o),
      State.foldl_engines (fun s it => State.finishMember_engines s it o), State.setTimers_engines]
  rw [State.engine_eq _ _ c h, State.setEngine_engine]

/-- What a carried-out disable leaves of its engine; no other engine is touched. -/
theorem State.carryOutDisable_engine (s : State) (b c : BranchId) :
    (s.carryOutDisable b).engine c =
      if c = b then
        { s.engine b with
          queue := [], state := .disabled, disablePending := false, retryTimer := none, recoveryTimer := none,
          copy := none, wire := if (s.engine b).wire = .closingMark then .closingMark else .released }
      else s.engine c := by
  unfold State.carryOutDisable
  simp only
  rw [State.setEngine_engine]
  split
  · simp [State.flushBranch_engine]
  · rename_i h
    simp [State.flushBranch_engine, h]

/-- What the end of an item leaves of its engine; no other engine is touched. -/
theorem State.endItem_engine (s : State) (b c : BranchId) :
    (s.endItem b).engine c =
      if c = b then
        if (s.engine b).disablePending then
          { s.engine b with
            inService := none, queue := [], state := .disabled, disablePending := false, retryTimer := none,
            recoveryTimer := none, copy := none, wire := .released }
        else { s.engine b with state := .idle, inService := none, copy := none, wire := .released }
      else s.engine c := by
  unfold State.endItem
  simp only
  by_cases h : c = b
  · subst h
    split
    · simp [State.carryOutDisable_engine]
    · simp
  · split
    · simp [State.carryOutDisable_engine, h]
    · simp [h]

/-- A dismissal takes the item out of service and touches no other engine. -/
theorem State.dismiss_engine (s : State) (b c : BranchId) (o : Status) :
    (s.dismiss b o).engine c = if c = b then { s.engine b with inService := none } else s.engine c := by
  unfold State.dismiss
  split
  · rename_i h
    split
    · rename_i hc
      subst hc
      rw [← h]
    · rfl
  · rw [State.engine_eq _ _ c (State.finishMember_engines _ _ _), State.setEngine_engine]

/-- What a fault leaves of its engine; no other engine is touched. -/
theorem State.fault_engine (s : State) (b c : BranchId) (r : BranchReason) :
    (s.fault b r).engine c =
      if c = b then
        Engine.afterFault { s.engine b with lastFault := r, inService := none, queue := [] }
      else s.engine c := by
  unfold State.fault
  simp only [State.setEngine_engine, State.hand_engine, State.flushBranch_engine, State.dismiss_engine]
  split <;> simp_all

end Sys2Proof.Machine
end

