-- ==== Sys2Proof/Laws/Commands.lean ====
section
/-! SUPPORT. The meanings of the branch engines, and the parts of admission that touch nothing but work, under a closed
relation: what holds of every elementary update holds of each of them. -/

namespace Sys2Proof.Machine.State.Closed

variable {R : State → State → Prop}

/-! ## The branch engines -/

theorem beginTry (h : Closed R) (s : State) (b : BranchId) (p q : Bool) : R s (s.beginTry b p q) := by
  unfold State.beginTry
  simp only
  split <;> exact h.setEngine _ _ _

theorem takeItem (h : Closed R) (s : State) (b : BranchId) (p q : Bool) : R s (s.takeItem b p q) := by
  unfold State.takeItem
  split
  · split
    · exact h.refl s
    · exact h.trans (h.trans (h.setEngine _ _ _) (h.serveMember _ _)) (h.beginTry _ _ _ _)
  · exact h.refl s

theorem endItemWith (h : Closed R) (s : State) (b : BranchId) (it : Item) (o : Status) :
    R s (s.endItemWith b it o) := h.trans (h.finishMember s it o) (h.endItem _ _)

theorem endItemGood (h : Closed R) (s : State) (b : BranchId) (it : Item) (v : List Byte) :
    R s (s.endItemGood b it v) := by
  unfold State.endItemGood
  simp only
  split
  · exact h.trans (h.trans (h.setEntry s _ _) (h.finishMember _ _ _)) (h.endItem _ _)
  · exact h.trans (h.endWatchRead _ _ _) (h.endItem _ _)
  · exact h.trans (h.finishMember _ _ _) (h.endItem _ _)

theorem busyEnd (h : Closed R) (s : State) (b : BranchId) (it : Item) (p q : Bool) : R s (s.busyEnd b it p q) := by
  unfold State.busyEnd
  simp only
  split
  · split
    · exact h.trans (h.setEngine _ _ _) (h.beginTry _ _ _ _)
    · exact h.setEngine _ _ _
  · exact h.endItemWith _ _ _ _

theorem checkEnd (h : Closed R) (s : State) (b : BranchId) (it : Item) (p q : Bool) :
    R s (s.checkEnd b it p q) := by
  unfold State.checkEnd
  simp only
  split
  · exact h.trans (h.setEngine _ _ _) (h.beginTry _ _ _ _)
  · exact h.endItemWith _ _ _ _

theorem endTry (h : Closed R) (s : State) (b : BranchId) (it : Item) (r : TryResult) (p q : Bool) :
    R s (s.endTry b it r p q) := by
  unfold State.endTry
  split
  · exact h.endItemGood _ _ _ _
  · exact h.busyEnd _ _ _ _ _
  · exact h.checkEnd _ _ _ _ _
  · exact h.endItemWith _ _ _ _
  · exact h.endItemWith _ _ _ _

theorem endExchange (h : Closed R) (s : State) (b : BranchId) (a : TargetAnswer) (p q : Bool) :
    R s (s.endExchange b a p q) := by
  unfold State.endExchange
  split
  · exact h.refl s
  · split
    · exact h.refl s
    · exact h.endTry _ _ _ _ _ _

theorem timeOutHold (h : Closed R) (s : State) (b : BranchId) : R s (s.timeOutHold b) := by
  unfold State.timeOutHold
  split
  · exact h.refl s
  · exact h.setEngine _ _ _

theorem expireRetry (h : Closed R) (s : State) (b : BranchId) (p q : Bool) : R s (s.expireRetry b p q) := by
  unfold State.expireRetry
  split
  · exact h.refl s
  · exact h.beginTry _ _ _ _

theorem tryAfterRecovery (h : Closed R) (s : State) (b : BranchId) (it : Item) : R s (s.tryAfterRecovery b it) := by
  unfold State.tryAfterRecovery
  simp only
  split
  · exact h.trans (h.trans (h.dropMember _ _) (h.settle _ _)) (h.endItem _ _)
  · split
    · exact h.endItemWith _ _ _ _
    · exact h.setEngine _ _ _

theorem endBareRecovery (h : Closed R) (s : State) (b : BranchId) : R s (s.endBareRecovery b) := by
  unfold State.endBareRecovery
  simp only
  split
  · exact h.trans (h.setEngine _ _ _) (h.carryOutDisable _ _)
  · exact h.setEngine _ _ _

theorem endRecovery (h : Closed R) (s : State) (b : BranchId) (p q : Bool) : R s (s.endRecovery b p q) := by
  unfold State.endRecovery
  simp only
  split
  · exact h.refl s
  · split
    · split
      · split
        · exact h.tryAfterRecovery _ _ _
        · exact h.endItemWith _ _ _ _
        · exact h.endBareRecovery _ _
        · exact h.endBareRecovery _ _
      · exact h.fault _ _ _
    all_goals exact h.refl s

theorem expireRecovery (h : Closed R) (s : State) (b : BranchId) : R s (s.expireRecovery b) := by
  unfold State.expireRecovery
  simp only
  split
  · exact h.setEngine _ _ _
  · exact h.refl s

theorem endAttempt (h : Closed R) (s : State) (b : BranchId) (p q : Bool) : R s (s.endAttempt b p q) := by
  unfold State.endAttempt
  simp only
  split
  · split
    · exact h.trans (h.setEngine _ _ _) (h.hand _ _)
    · exact h.setEngine _ _ _
  · exact h.refl s

theorem endClosingMark (h : Closed R) (s : State) (b : BranchId) : R s (s.endClosingMark b) := by
  unfold State.endClosingMark
  simp only
  split
  · split
    any_goals exact h.setEngine _ _ _
    all_goals
      split
      · exact h.trans (h.setEngine _ _ _) (h.setEngine _ _ _)
      · exact h.trans (h.setEngine _ _ _) (h.carryOutDisable _ _)
  · exact h.refl s

theorem expireWatch (h : Closed R) (s : State) (i : EntryId) : R s (s.expireWatch i) := by
  unfold State.expireWatch
  split
  · split
    · exact h.refl s
    · exact h.trans (h.trans (h.removeTimer _ _) (h.setEntry _ _ _)) (h.appendItem _ _ _)
  · exact h.refl s

/-! ## Admission -/

theorem refuse (h : Closed R) (s : State) (i : EntryId) (st : Status) : R s (s.refuse i st) := by
  unfold State.refuse
  split
  · exact h.endPosted _ _ _
  · exact h.completeEntry _ _ _ _

theorem answer (h : Closed R) (s : State) (i : EntryId) (st : Status) (r : Reply) : R s (s.answer i st r) :=
  h.completeEntry _ _ _ _

theorem placeDirect (h : Closed R) (s : State) (i : EntryId) (m : Member) : R s (s.placeDirect i m) := by
  unfold State.placeDirect
  simp only
  split
  · exact h.trans (h.setEntry s i _) (h.appendItem _ _ _)
  · exact h.trans (h.setEntry s i _) (h.refuse _ _ _)

theorem placeMember (h : Closed R) (i : EntryId) (s : State) (x : Member × Nat) : R s (State.placeMember i s x) := by
  unfold State.placeMember
  split
  · exact h.appendItem _ _ _
  · exact h.refl s

theorem placeGroup (h : Closed R) (s : State) (i : EntryId) (l : List Member) : R s (s.placeGroup i l) := by
  unfold State.placeGroup
  simp only
  exact h.trans (h.trans (h.setEntry s i _) (h.foldl (h.placeMember i) _ _)) (h.settle _ _)

theorem resolve (h : Closed R) (s : State) (i : EntryId) (k : Kind) (a : Half) (n : Nat) (d : List Byte)
    (w : Option WatchRecord) : R s (s.resolve i k a n d w) := by
  unfold State.resolve
  simp only
  refine h.trans (h.setEntry s i { s.entry i with address := some a, length := some n, data := d }) ?_
  generalize s.setEntry i { s.entry i with address := some a, length := some n, data := d } = t
  split
  · exact h.refuse _ _ _
  · refine h.trans (h.setEntry t i { t.entry i with watch := w }) ?_
    generalize t.setEntry i { t.entry i with watch := w } = u
    split
    · exact h.placeGroup _ _ _
    · exact h.placeDirect _ _ _
    · exact h.refuse _ _ _

theorem disable (h : Closed R) (s : State) (b : BranchId) : R s (s.disable b) := by
  unfold State.disable
  simp only
  split
  · exact h.setEngine _ _ _
  · exact h.setEngine _ _ _
  · exact h.trans (h.trans (h.setEngine _ _ _) (h.dismiss _ _ _)) (h.carryOutDisable _ _)
  · exact h.carryOutDisable _ _
  · exact h.carryOutDisable _ _
  · exact h.carryOutDisable _ _

theorem enable (h : Closed R) (s : State) (b : BranchId) : R s (s.enable b) := h.setEngine _ _ _

theorem reconfigure (h : Closed R) (s : State) (b : BranchId) (c : BranchConfig) : R s (s.reconfigure b c) := by
  unfold State.reconfigure
  simp only
  refine h.trans (h.setEngine s b { s.engine b with config := c }) ?_
  split
  · exact h.enable _ _
  · exact h.disable _ _

theorem setBranch (h : Closed R) (s : State) (i : EntryId) (b : BranchId) (c : BranchConfig) :
    R s (s.setBranch i b c) := h.trans (h.reconfigure s b c) (h.answer _ _ _ _)

theorem cancelMember (h : Closed R) (i : EntryId) (s : State) (x : Member × Nat) :
    R s (State.cancelMember i s x) := by
  unfold State.cancelMember
  simp only
  split
  · exact h.refl s
  · exact h.refl s
  · exact h.trans (h.setEngine _ _ _) (h.dropMember _ _)
  · split
    · exact h.trans (h.setEngine _ _ _) (h.dropMember _ _)
    · exact h.setEntry _ _ _

end Sys2Proof.Machine.State.Closed

namespace Sys2Proof.Machine

/-- A closed relation that the further updates of taking a head keep too. -/
structure State.Admits (R : State → State → Prop) : Prop extends State.Closed R where
  setRx : ∀ s rx, R s (s.setRx rx)
  setRoutes : ∀ s r, R s (s.setRoutes r)
  setArbiter : ∀ s a, R s (s.setArbiter a)
  setHalt : ∀ s : State, R s { s with halt := true }
  countFree : ∀ (s : State) (n : Nat), R s { s with freeCount := n }
  allocate : ∀ s i fr, R s (s.allocate i fr)

namespace State.Admits

variable {R : State → State → Prop}

theorem stage (h : Admits R) (s : State) (i : EntryId) (slot : SlotId) (r : Route) : R s (s.stage i slot r) := by
  unfold State.stage
  split
  · exact h.answer _ _ _ _
  · exact h.trans (h.setRoutes _ _) (h.answer _ _ _ _)

theorem discardStaging (h : Admits R) (s : State) (i : EntryId) : R s (s.discardStaging i) := by
  unfold State.discardStaging
  split
  · exact h.answer _ _ _ _
  · exact h.trans (h.setRoutes _ _) (h.answer _ _ _ _)

theorem commitNow (h : Admits R) (s : State) (i : EntryId) : R s (s.commitNow i) :=
  h.trans (h.setRoutes s _) (h.completeEntry _ _ _ _)

theorem startQuiesce (h : Admits R) (s : State) (i : EntryId) (n : Nat) : R s (s.startQuiesce i n) :=
  h.trans (h.setEntry s i _) (h.setRoutes _ _)

theorem commit (h : Admits R) (s : State) (i : EntryId) (g : Half) (m : CommitMode) (t : Half) :
    R s (s.commit i g m t) := by
  unfold State.commit
  simp only
  split
  · exact h.answer _ _ _ _
  · split
    · exact h.answer _ _ _ _
    · split
      · exact h.answer _ _ _ _
      · split
        · exact h.commitNow _ _
        · split
          · exact h.commitNow _ _
          · exact h.startQuiesce _ _ _

theorem requestReset (h : Admits R) (s : State) (i : EntryId) (sc : ResetScope) : R s (s.requestReset i sc) :=
  h.trans (h.trans (h.setHalt s) (h.setEntry { s with halt := true } i _)) (h.answer _ _ _ _)

theorem cancelTarget (h : Admits R) (s : State) (i : EntryId) : R s (s.cancelTarget i).1 := by
  unfold State.cancelTarget
  split
  · exact h.trans (h.foldl (h.cancelMember i) _ _) (h.settle _ _)
  · exact h.trans (h.foldl (h.cancelMember i) _ _) (h.settle _ _)
  · exact h.trans (h.trans (h.removeTimer _ _) (h.dropMember _ _)) (h.settle _ _)
  · exact h.trans (h.setRoutes _ _) (h.completeEntry _ _ _ _)
  · exact h.refl s
  · exact h.refl s
  · exact h.refl s

theorem cancel (h : Admits R) (s : State) (i : EntryId) (tag : Byte) : R s (s.cancel i tag) := by
  unfold State.cancel
  split
  · exact h.answer _ _ _ _
  · exact h.trans (h.cancelTarget _ _) (h.answer _ _ _ _)

/-- The execution of any request keeps the relation. -/
theorem execute (h : Admits R) (s : State) (i : EntryId) (r : Request) : R s (s.execute i r) := by
  cases r <;> simp only [State.execute]
  · exact h.resolve _ _ _ _ _ _ _
  · exact h.resolve _ _ _ _ _ _ _
  · exact h.resolve _ _ _ _ _ _ _
  · exact h.cancel _ _ _
  · exact h.answer _ _ _ _
  · exact h.answer _ _ _ _
  · exact h.stage _ _ _ _
  · exact h.answer _ _ _ _
  · exact h.commit _ _ _ _ _
  · exact h.discardStaging _ _
  · exact h.setBranch _ _ _ _
  · exact h.answer _ _ _ _
  · exact h.trans (h.setArbiter _ _) (h.answer _ _ _ _)
  · exact h.requestReset _ _ _

theorem runChecks (h : Admits R) (s : State) (fr : Frame) : R s (s.runChecks fr) := by
  unfold State.runChecks
  split
  · exact h.hand _ _
  · split
    · exact h.refl s
    · split
      · exact h.trans (h.allocate _ _ _) (h.refuse _ _ _)
      · exact h.trans (h.allocate _ _ _) (h.execute _ _ _)

theorem takeHead (h : Admits R) (s : State) (fr : Frame) (rest : List Frame) : R s (s.takeHead fr rest) := by
  unfold State.takeHead
  simp only
  refine h.trans (h.setRx s { s.rx with inbound := rest, lastTag := some fr.tag }) ?_
  generalize s.setRx { s.rx with inbound := rest, lastTag := some fr.tag } = t
  split
  · refine h.trans (h.countFree t (t.freeCount + 1)) ?_
    split
    · exact h.trans (h.hand _ _) (h.runChecks _ _)
    · exact h.trans (h.runChecks _ _) (h.hand _ _)
  · exact h.runChecks _ _

/-- The taking of a head keeps the relation. -/
theorem take (h : Admits R) (s : State) (f : Frame → Bool) : R s (s.take f) := by
  unfold State.take
  split
  · exact h.refl s
  · split
    · exact h.takeHead _ _ _
    · exact h.refl s

theorem drain (h : Admits R) (s : State) : R s s.drain := by
  unfold State.drain
  split
  · split
    · exact h.refl s
    · simp only
      split
      · exact h.trans (h.setRoutes _ _) (h.completeEntry _ _ _ _)
      · exact h.setRoutes _ _
  · exact h.refl s

theorem expireQuiesce (h : Admits R) (s : State) : R s s.expireQuiesce := by
  unfold State.expireQuiesce
  split
  · exact h.refl s
  · split
    · exact h.refl s
    · simp only
      split
      · exact h.trans (h.setRoutes _ _) (h.completeEntry _ _ _ _)
      · exact h.setRoutes _ _

end State.Admits

end Sys2Proof.Machine
end

