-- ==== Sys2Proof/Laws/Line.lean ====
section
/-! SUPPORT. The lengths of what stands on the lines agree with the durations of the manual, and a character sampled and
a cell taken bit by bit are the ones sent. -/

namespace Sys2Proof.Machine

/-! ## The trunk -/

@[simp] theorem characterLevels_length (v : Byte) : (characterLevels v).length = 10 := by simp [characterLevels]

/-- A frame in transmission is on the line for ten bit periods a character (R164). -/
@[simp] theorem Sending.levels_length (x : Sending) : x.levels.length = 10 * x.bytes.length := by
  unfold Sending.levels
  induction x.bytes with
  | nil => rfl
  | cons v rest ih => simp only [List.flatMap_cons, List.length_append, characterLevels_length, ih, List.length_cons]; omega

/-- Eight data bits sampled in their middle give the value sent (R164, R165). -/
theorem valueOfLevels_of_bits (v : Byte) :
    valueOfLevels ((List.range 8).map (fun k => bitLevel (v.getLsbD k))) = v := by
  revert v
  decide +kernel

/-- An idle TTXD is at marking (R164). -/
@[simp] theorem State.ttxd_idle {s : State} (h : s.tx = none) (k : Nat) : s.ttxd k = .marking := by simp [State.ttxd, h]

/-! ## The branches -/

@[simp] theorem cellDrive_length (v : Byte) : (cellDrive v).length = 16 := by
  simp [cellDrive, cellBits, sentBit, List.range_succ]

@[simp] theorem flatMap_cellDrive_length (l : List Byte) : (l.flatMap cellDrive).length = 16 * l.length := by
  induction l with
  | nil => rfl
  | cons v rest ih => simp only [List.flatMap_cons, List.length_append, cellDrive_length, ih, List.length_cons]; omega

@[simp] theorem releasedBits_length (n : Nat) : (releasedBits n).length = 2 * n := by
  simp [releasedBits, releasedBit]; omega

/-- What a target does to BDA to send a bit: low for a 0, released for a 1 (R65). -/
@[simp] theorem receivedBit_of_sent (bit : Bool) : receivedBit (if bit then .released else .low) = bit := by
  cases bit <;> rfl

/-- The bits of a cell taken in order give the cell (R65). -/
@[simp] theorem cellOfBits_cellBits (v : Byte) : cellOfBits (cellBits v) = v := by
  revert v
  decide +kernel

/-- Cells sent bit by bit are taken as they were sent (R65). -/
@[simp] theorem cellsOfBits_cellBits (l : List Byte) : cellsOfBits (l.flatMap cellBits) = l := by
  induction l with
  | nil => rfl
  | cons v rest ih =>
    have h : cellsOfBits (cellBits v ++ rest.flatMap cellBits) = cellOfBits (cellBits v) :: cellsOfBits (rest.flatMap cellBits) :=
      rfl
    rw [List.flatMap_cons, h, ih, cellOfBits_cellBits]

/-- A target that drives nothing in its cells is read as 0xFF (R69, R70). -/
theorem cellOfBits_undriven : cellOfBits ((List.replicate 8 Pull.released).map receivedBit) = 0xFF#8 := by decide

/-- A READ of length n lasts the bit periods of R73. -/
theorem exchangeDrive_read_length (header register count : Byte) (h : header &&& 7#8 = 1#8) :
    (exchangeDrive true [header, register, count]).length = 2 * readBitPeriods count.toNat := by
  simp [exchangeDrive, answerBits, h, readBitPeriods, openingMark, closingMark, releasedBit]; omega

/-- A WRITE of length n, whose header is followed by the index, the count, n data cells and the check cell, lasts the bit periods
of R73. -/
theorem exchangeDrive_write_length (header register count : Byte) (rest : List Byte) (h : header &&& 7#8 ≠ 1#8)
    (hn : rest.length = count.toNat + 1) :
    (exchangeDrive true (header :: register :: count :: rest)).length = 2 * writeBitPeriods count.toNat := by
  simp [exchangeDrive, answerBits, h, hn, writeBitPeriods, openingMark, closingMark, releasedBit]; omega

/-- An exchange with an absent device lasts 13 bit periods (R68). -/
theorem exchangeDrive_absent_length (header register count : Byte) (rest : List Byte) :
    (exchangeDrive false (header :: register :: count :: rest)).length = 2 * noDeviceBitPeriods := by
  simp [exchangeDrive, noDeviceBitPeriods, openingMark, closingMark, releasedBit]

/-- A recovery sequence lasts 18 bit periods (R73, R82). -/
theorem recoveryDrive_length : recoveryDrive.length = 2 * recoveryBitPeriods := by decide

end Sys2Proof.Machine
end

