-- ==== Sys2Proof/Laws/Notices.lean ====
section
/-! SUPPORT. What handing a notice can do to the queue: merging keeps every type in its place, and a notice that is not merged
finds no queued notice to merge with. -/

namespace Sys2Proof.Machine

/-- A merge is between two notices of one type and gives a third of it. -/
theorem Notice.merge_code {old new merged : Notice} (h : old.merge new = some merged) :
    old.code = new.code ∧ merged.code = old.code ∧ new.code ∈ [0x03#8, 0x04#8, 0x05#8] := by
  cases old <;> cases new <;> simp_all [Notice.merge, Notice.code] <;> subst h <;> rfl

/-- Two notices of one type merge, if the type is CREDIT, OVERRUN or LINK_ERROR. -/
theorem Notice.merge_none {old new : Notice} (h : old.merge new = none)
    (hc : new.code ∈ [0x03#8, 0x04#8, 0x05#8]) : old.code ≠ new.code := by
  cases old <;> cases new <;> simp_all [Notice.merge, Notice.code]

theorem coalesce_codes {new : Notice} :
    ∀ {q q' : List Notice}, coalesce new q = some q' → q'.map Notice.code = q.map Notice.code
  | [], _, h => by simp [coalesce] at h
  | old :: rest, q', h => by
    unfold coalesce at h
    split at h
    · rename_i merged hm
      cases h
      simp [(Notice.merge_code hm).2.1]
    · obtain ⟨r, hr, rfl⟩ := Option.map_eq_some_iff.mp h
      simp [coalesce_codes hr]

theorem coalesce_none {new : Notice} (hc : new.code ∈ [0x03#8, 0x04#8, 0x05#8]) :
    ∀ {q : List Notice}, coalesce new q = none → ∀ y ∈ q, y.code ≠ new.code
  | [], _, _, hy => by simp at hy
  | old :: rest, h, y, hy => by
    unfold coalesce at h
    split at h
    · cases h
    · rename_i hm
      rcases List.mem_cons.mp hy with rfl | hy
      · exact Notice.merge_none hm hc
      · exact coalesce_none hc (Option.map_eq_none_iff.mp h) y hy

/-- Counting a type depends on the types alone. -/
theorem NoticeUnit.countOf_eq (n : NoticeUnit) (code : Byte) :
    n.countOf code = (n.queue.map Notice.code).countP (· == code) := by
  simp [NoticeUnit.countOf, List.countP_map, Function.comp_def]

/-- Handing a notice keeps the bounds of the queue. -/
theorem NoticeUnit.hand_sound {n : NoticeUnit} (h : n.Sound) (x : Notice) : (n.hand x).Sound := by
  unfold NoticeUnit.hand
  split
  · rename_i q hq
    have hc := coalesce_codes hq
    have hl : q.length = n.queue.length := by simpa using congrArg List.length hc
    obtain ⟨h1, h2, h3, h4⟩ := h
    rw [NoticeUnit.countOf_eq] at h2 h3 h4
    refine ⟨?_, ?_, ?_, ?_⟩
    · simpa [hl] using h1
    all_goals
      rw [NoticeUnit.countOf_eq]
      simp only [hc]
      assumption
  · rename_i hq
    split
    · rename_i hl
      obtain ⟨h1, h2, h3, h4⟩ := h
      have key : ∀ c ∈ [0x03#8, 0x04#8, 0x05#8], n.countOf c ≤ 1 →
          ({ n with queue := n.queue ++ [x] } : NoticeUnit).countOf c ≤ 1 := by
        intro c hc hn
        by_cases hx : x.code = c
        · have h0 : n.countOf c = 0 := by
            refine List.countP_eq_zero.mpr (fun y hy => ?_)
            have := coalesce_none (hx ▸ hc) hq y hy
            simpa [← hx] using this
          simp only [NoticeUnit.countOf] at h0 ⊢
          rw [List.countP_append, h0]
          simp [hx]
        · simp only [NoticeUnit.countOf] at hn ⊢
          rw [List.countP_append]
          simpa [hx] using hn
      refine ⟨?_, key _ (by simp) h2, key _ (by simp) h3, key _ (by simp) h4⟩
      simp only [List.length_append, List.length_singleton]
      simp only [Config.noticeSlots] at hl
      omega
    · exact h

end Sys2Proof.Machine
end

