-- ==== Sys2Proof/Laws/Table.lean ====
section
/-! SUPPORT. The outstanding table under the shared operations: an entry keeps what allocation fixed until it is freed, and the
counts stay in accord with the entries. -/

namespace Sys2Proof.Machine

/-! ## One place of a count -/

theorem countP_change {α : Type} {p q : α → Bool} {i : α} (hi : p i = true) (hq : q i = false)
    (h : ∀ j, j ≠ i → q j = p j) : ∀ l : List α, l.Nodup → i ∈ l → l.countP q + 1 = l.countP p
  | [], _, m => by simp at m
  | a :: l, nd, m => by
    rw [List.nodup_cons] at nd
    rw [List.countP_cons, List.countP_cons]
    by_cases ha : a = i
    · subst ha
      have : l.countP q = l.countP p := List.countP_congr (fun j hj => by
        rw [h j (fun e => nd.1 (e ▸ hj))])
      simp [hi, hq, this]
    · have m' : i ∈ l := by simpa [Ne.symm ha] using m
      have := countP_change hi hq h l nd.2 m'
      rw [h a ha]
      omega

/-- The number of entries in use of a class when one entry is replaced. -/
theorem State.inUseOf_setEntry_same (s : State) (i : EntryId) (e : Entry) (cls : RequestClass)
    (h1 : e.inUse = (s.entry i).inUse) (h2 : e.cls = (s.entry i).cls) :
    (s.setEntry i e).inUseOf cls = s.inUseOf cls := by
  unfold State.inUseOf
  refine List.countP_congr (fun j _ => ?_)
  rw [State.setEntry_entry]
  split
  · rename_i hj
    rw [h1, h2, hj]
  · rfl

/-- The entry keeps what allocation fixed. -/
structure Entry.Follows (e f : Entry) : Prop where
  inUse : f.inUse = e.inUse
  tag : f.tag = e.tag
  cls : f.cls = e.cls

theorem Entry.Follows.refl (e : Entry) : e.Follows e := ⟨rfl, rfl, rfl⟩

/-! ## What keeps the table sound -/

/-- From a sound table to a sound table, with no more DATA entries than before. -/
structure State.KeepsTable (s t : State) : Prop where
  sound : s.TableSound → t.TableSound
  data : t.table.dataInUse ≤ s.table.dataInUse

theorem State.KeepsTable.refl (s : State) : s.KeepsTable s := ⟨id, le_refl _⟩

theorem State.KeepsTable.trans {s t u : State} (h : s.KeepsTable t) (k : t.KeepsTable u) : s.KeepsTable u :=
  ⟨k.sound ∘ h.sound, k.data.trans h.data⟩

theorem State.KeepsTable.foldl {α : Type} {f : State → α → State} (hf : ∀ (s : State) a, s.KeepsTable (f s a)) :
    ∀ (l : List α) (s : State), s.KeepsTable (l.foldl f s)
  | [], s => .refl s
  | a :: l, s => (hf s a).trans (State.KeepsTable.foldl hf l (f s a))

/-- The table alone decides. -/
theorem State.keepsTable_of_table {s t : State} (h : t.table = s.table) : s.KeepsTable t := by
  have he : ∀ i, t.entry i = s.entry i := fun i => by simp [State.entry, h]
  have hc : ∀ c, t.inUseOf c = s.inUseOf c := fun c => by simp [State.inUseOf, he]
  refine ⟨fun hs => ⟨?_, ?_, ?_, ?_⟩, by rw [h]⟩
  · intro i j hi hj ht
    rw [he] at hi hj ht
    rw [he] at ht
    exact hs.tags i j hi hj ht
  · rw [h, hc]; exact hs.data
  · rw [h, hc]; exact hs.control
  · rw [h]; exact hs.share

theorem State.setEntry_keepsTable (s : State) (i : EntryId) (e : Entry) (h : (s.entry i).Follows e) :
    s.KeepsTable (s.setEntry i e) := by
  refine ⟨fun hs => ⟨?_, ?_, ?_, ?_⟩, by simp⟩
  · have hk : ∀ j, ((s.setEntry i e).entry j).inUse = (s.entry j).inUse ∧
        ((s.setEntry i e).entry j).tag = (s.entry j).tag := by
      intro j
      rw [State.setEntry_entry]
      split
      · rename_i hj
        rw [hj]
        exact ⟨h.inUse, h.tag⟩
      · exact ⟨rfl, rfl⟩
    intro j k hj hk' ht
    rw [(hk j).1] at hj
    rw [(hk k).1] at hk'
    rw [(hk j).2, (hk k).2] at ht
    exact hs.tags j k hj hk' ht
  · rw [State.inUseOf_setEntry_same s i e _ h.inUse h.cls]; simpa using hs.data
  · rw [State.inUseOf_setEntry_same s i e _ h.inUse h.cls]; simpa using hs.control
  · simpa using hs.share

@[simp] theorem Entry.free_inUse : Entry.free.inUse = false := rfl

theorem State.freeEntry_entry (s : State) (i j : EntryId) (h : (s.entry i).inUse = true) :
    (s.freeEntry i).entry j = if j = i then Entry.free else s.entry j := by
  unfold State.freeEntry
  rw [if_pos h]
  cases (s.entry i).cls <;> simp [State.entry, OutstandingTable.lower, Table.get_set]

theorem State.freeEntry_inUseOf (s : State) (i : EntryId) (cls : RequestClass) (h : (s.entry i).inUse = true) :
    (s.freeEntry i).inUseOf cls + (if (s.entry i).cls = cls then 1 else 0) = s.inUseOf cls := by
  unfold State.inUseOf
  split
  · rename_i hc
    refine countP_change (i := i) (by simp [h, hc]) (by simp [State.freeEntry_entry s i i h]) (fun j hj => ?_)
      _ (List.nodup_finRange 16) (List.mem_finRange i)
    rw [State.freeEntry_entry s i j h, if_neg hj]
  · rename_i hc
    rw [Nat.add_zero]
    refine List.countP_congr (fun j _ => ?_)
    rw [State.freeEntry_entry s i j h]
    split
    · rename_i hj
      simp [hj, hc]
    · rfl

theorem State.freeEntry_keepsTable (s : State) (i : EntryId) : s.KeepsTable (s.freeEntry i) := by
  by_cases h : (s.entry i).inUse = true
  · have hd := s.freeEntry_inUseOf i .data h
    have hc := s.freeEntry_inUseOf i .control h
    have ht : (s.freeEntry i).table.dataInUse =
          (if (s.entry i).cls = .data then s.table.dataInUse - 1 else s.table.dataInUse) ∧
        (s.freeEntry i).table.controlInUse =
          (if (s.entry i).cls = .data then s.table.controlInUse else s.table.controlInUse - 1) := by
      unfold State.freeEntry
      rw [if_pos h]
      cases (s.entry i).cls <;> simp [OutstandingTable.lower]
    refine ⟨fun hs => ⟨?_, ?_, ?_, ?_⟩, ?_⟩
    · intro j k hj hk hjk
      rw [State.freeEntry_entry s i j h] at hj hjk
      rw [State.freeEntry_entry s i k h] at hk hjk
      split at hj
      · simp at hj
      · split at hk
        · simp at hk
        · exact hs.tags j k hj hk (by simp_all)
    · have := hs.data
      rw [ht.1]
      split at hd <;> split <;> simp_all
      omega
    · have := hs.control
      rw [ht.2]
      cases hcls : (s.entry i).cls <;> simp_all
      omega
    · have := hs.share
      rw [ht.1]
      split <;> omega
    · rw [ht.1]
      split <;> omega
  · unfold State.freeEntry
    rw [if_neg h]
    exact .refl s

/-! ## The shared operations -/

theorem State.hand_keepsTable (s : State) (x : Notice) : s.KeepsTable (s.hand x) := State.keepsTable_of_table rfl

theorem State.setEngine_keepsTable (s : State) (b : BranchId) (g : Engine) : s.KeepsTable (s.setEngine b g) :=
  State.keepsTable_of_table rfl

theorem State.setTimers_keepsTable (s : State) (l : List WatchTimer) : s.KeepsTable (s.setTimers l) :=
  State.keepsTable_of_table rfl

theorem State.setArbiter_keepsTable (s : State) (a : Arbiter) : s.KeepsTable (s.setArbiter a) :=
  State.keepsTable_of_table rfl

theorem State.setRoutes_keepsTable (s : State) (r : RouteUnit) : s.KeepsTable (s.setRoutes r) :=
  State.keepsTable_of_table rfl

/-- Completing an entry in use keeps the table sound. -/
theorem State.completeEntry_keepsTable (s : State) (i : EntryId) (st : Status) (r : Reply)
    (h : (s.entry i).inUse = true) : s.KeepsTable (s.completeEntry i st r) :=
  (s.setEntry_keepsTable i { s.entry i with state := .complete, status := some st, reply := r } ⟨by rw [h]; rfl, rfl, rfl⟩).trans
    (State.setArbiter_keepsTable _ _)

theorem State.endPosted_keepsTable (s : State) (i : EntryId) (st : Status) : s.KeepsTable (s.endPosted i st) := by
  unfold State.endPosted
  simp only
  split
  · exact s.freeEntry_keepsTable i
  · exact (s.freeEntry_keepsTable i).trans (State.hand_keepsTable _ _)

theorem State.finishEntry_keepsTable (s : State) (i : EntryId) (h : (s.entry i).inUse = true) :
    s.KeepsTable (s.finishEntry i) := by
  unfold State.finishEntry
  simp only
  split
  · exact s.endPosted_keepsTable i _
  · exact s.completeEntry_keepsTable i _ _ h

theorem State.settle_keepsTable (s : State) (i : EntryId) : s.KeepsTable (s.settle i) := by
  unfold State.settle
  simp only
  split
  any_goals exact .refl s
  all_goals
    rename_i h
    split
    · exact .refl s
    · exact s.finishEntry_keepsTable i (by simp [Entry.inUse, h])

theorem State.setMember_keepsTable (s : State) (it : Item) (st : MemberState) (o : Option Status) :
    s.KeepsTable (s.setMember it st o) := s.setEntry_keepsTable _ _ ⟨rfl, rfl, rfl⟩

theorem State.finishMember_keepsTable (s : State) (it : Item) (o : Status) : s.KeepsTable (s.finishMember it o) :=
  (s.setMember_keepsTable it _ _).trans (State.settle_keepsTable _ _)

theorem State.dropMember_keepsTable (s : State) (it : Item) : s.KeepsTable (s.dropMember it) :=
  s.setMember_keepsTable it _ _

theorem State.serveMember_keepsTable (s : State) (it : Item) : s.KeepsTable (s.serveMember it) := by
  refine s.setEntry_keepsTable _ _ ⟨?_, rfl, rfl⟩
  by_cases h : (s.entry it.entry).state = .queued <;> simp [Entry.inUse, Entry.setMember, h]
  decide

theorem State.placeTimer_keepsTable (s : State) (i : EntryId) (n : Nat) : s.KeepsTable (s.placeTimer i n) :=
  State.keepsTable_of_table rfl

theorem State.waitAgain_keepsTable (s : State) (it : Item) (n : Nat) : s.KeepsTable (s.waitAgain it n) := by
  unfold State.waitAgain
  simp only
  refine .trans (s.setEntry_keepsTable it.entry _ ?_) (State.placeTimer_keepsTable _ _ _)
  refine ⟨?_, rfl, rfl⟩
  by_cases h : (s.entry it.entry).state = .active <;> simp [Entry.inUse, Entry.setMember, h]
  decide

theorem State.endWatchRead_keepsTable (s : State) (it : Item) (v : List Byte) :
    s.KeepsTable (s.endWatchRead it v) := by
  unfold State.endWatchRead
  split
  · exact s.finishMember_keepsTable it _
  · rename_i w _
    have h := s.setEntry_keepsTable it.entry { s.entry it.entry with watch := some (w.after v) } ⟨rfl, rfl, rfl⟩
    simp only
    split
    · exact h.trans (State.finishMember_keepsTable _ _ _)
    · exact h.trans (State.waitAgain_keepsTable _ _ _)

theorem State.flushBranch_keepsTable (s : State) (b : BranchId) (o : Status) : s.KeepsTable (s.flushBranch b o) := by
  unfold State.flushBranch
  simp only
  exact (((s.setEngine_keepsTable b _).trans (State.setTimers_keepsTable _ _)).trans
    (.foldl (fun s it => s.finishMember_keepsTable it o) _ _)).trans (.foldl (fun s t => s.finishMember_keepsTable _ o) _ _)

theorem State.carryOutDisable_keepsTable (s : State) (b : BranchId) : s.KeepsTable (s.carryOutDisable b) :=
  (s.flushBranch_keepsTable b _).trans (State.setEngine_keepsTable _ _ _)

theorem State.endItem_keepsTable (s : State) (b : BranchId) : s.KeepsTable (s.endItem b) := by
  unfold State.endItem
  simp only
  split
  · exact (s.setEngine_keepsTable b _).trans (State.carryOutDisable_keepsTable _ _)
  · exact s.setEngine_keepsTable b _

theorem State.dismiss_keepsTable (s : State) (b : BranchId) (o : Status) : s.KeepsTable (s.dismiss b o) := by
  unfold State.dismiss
  split
  · exact .refl s
  · exact (s.setEngine_keepsTable b _).trans (State.finishMember_keepsTable _ _ _)

theorem State.fault_keepsTable (s : State) (b : BranchId) (r : BranchReason) : s.KeepsTable (s.fault b r) :=
  ((((s.setEngine_keepsTable b _).trans (State.dismiss_keepsTable _ b .branchFault)).trans
    (State.flushBranch_keepsTable _ b .branchFault)).trans
    (State.hand_keepsTable _ (.branchState b .faulted r))).trans (State.setEngine_keepsTable _ b _)

end Sys2Proof.Machine
end

