-- ==== Sys2Proof/Laws/Trunk.lean ====
section
/-! SUPPORT. What a decision of the arbiter, the beginning of a frame and the consequences of a release can do, each said
once. -/

namespace Sys2Proof.Machine

/-! ## Consequences of a release -/

namespace State.Admits

variable {R : State → State → Prop}

theorem consequence (h : Admits R) (s : State) (c : Consequence) : R s (s.consequence c) := by
  cases c
  · exact h.drain s
  · exact h.take s _

/-- What is taken before a decision keeps the relation. -/
theorem beforeDecision (h : Admits R) (s : State) : R s s.beforeDecision := by
  unfold State.beforeDecision
  split
  · exact h.trans (h.countFree s _) (h.foldl (fun s c => h.consequence s c) _ _)
  · exact h.refl s

end State.Admits

/-- With no commit pending and no head waiting, a release makes nothing due. -/
theorem State.beforeDecision_eq_self (s : State) (hp : s.routes.pendingCommit = none) (hi : s.rx.inbound = []) :
    s.beforeDecision = s := by
  simp [State.beforeDecision, State.drainDue, State.headReady, hp, hi]

/-! ## Decisions -/

theorem Arbiter.continuing_eq_some {a : Arbiter} {ready : Source → Bool} {src : Source} {n : Nat}
    (h : a.continuing ready = some (src, n)) :
    a.grant = some (src, n) ∧ ready src = true ∧ n < a.config.burst ∧ a.yields ready src = false := by
  unfold Arbiter.continuing at h
  split at h
  · cases h
  · split at h
    · cases h
      simp_all
    · cases h

theorem Arbiter.choose_eq_some {a : Arbiter} {ready : Source → Bool} {src : Source} {l : List Source}
    (h : a.choose ready = some (src, l)) : ready src = true ∧ src ∈ a.config.order := by
  unfold Arbiter.choose at h
  split at h
  · obtain ⟨x, hx, he⟩ := Option.map_eq_some_iff.mp h
    cases he
    exact ⟨List.find?_some hx, List.mem_of_find?_eq_some hx⟩
  · split at h
    · rename_i x hx
      cases h
      have := List.find?_some hx
      exact ⟨by simp_all, List.mem_of_find?_eq_some hx⟩
    · obtain ⟨x, hx, he⟩ := Option.map_eq_some_iff.mp h
      cases he
      exact ⟨List.find?_some hx, List.mem_of_find?_eq_some hx⟩

/-- A decision begins the head frame of one source it sees ready, under a grant of that source, or leaves no grant. -/
theorem State.arbitrate_cases (s : State) (ready : Source → Bool) :
    (∃ src n l, ready src = true ∧ 1 ≤ n ∧
      s.arbitrate ready =
        (s.setArbiter { s.arbiter.sync with grant := some (src, n), roundSet := l }).beginFrame src) ∨
    s.arbitrate ready = s.setArbiter { s.arbiter.sync with grant := none } := by
  unfold State.arbitrate
  simp only
  split
  · rename_i src n h
    exact .inl ⟨src, n + 1, _, (Arbiter.continuing_eq_some h).2.1, Nat.le_add_left 1 n, rfl⟩
  · split
    · rename_i src l h
      exact .inl ⟨src, 1, l, (Arbiter.choose_eq_some h).1, Nat.le_refl 1, rfl⟩
    · exact .inr rfl

/-! ## The beginning of a frame -/

/-- What the beginning of a frame leaves: everything but the entry that goes SENDING, the credit, the source queues, the notice
unit and TTXD. -/
structure State.Begins (s t : State) : Prop where
  supply : t.supply = s.supply
  trxd : t.trxd = s.trxd
  straps : t.straps = s.straps
  halt : t.halt = s.halt
  routes : t.routes = s.routes
  engines : t.engines = s.engines
  timers : t.timers = s.timers
  freeCount : t.freeCount = s.freeCount
  pending : t.pending = s.pending
  inbound : t.rx = { s.rx with advertised := t.rx.advertised }
  config : t.arbiter.config = s.arbiter.config
  decisionMode : t.arbiter.decisionMode = s.arbiter.decisionMode
  roundSet : t.arbiter.roundSet = s.arbiter.roundSet
  grant : t.arbiter.grant = s.arbiter.grant
  dataInUse : t.table.dataInUse = s.table.dataInUse
  controlInUse : t.table.controlInUse = s.table.controlInUse

theorem State.beginFrame_begins (s : State) (src : Source) : s.Begins (s.beginFrame src) := by
  unfold State.beginFrame
  split <;> split <;> constructor <;> rfl

/-- A frame begins from a source that is ready. -/
theorem State.beginFrame_tx (s : State) (src : Source) (h : s.sourceReady src = true) :
    (s.beginFrame src).tx.isSome = true := by
  cases src <;> simp only [State.sourceReady, Bool.not_eq_true', List.isEmpty_eq_false_iff] at h <;>
    unfold State.beginFrame <;> simp only <;> split <;> first
      | rfl
      | (rename_i hq; exact absurd hq h)

end Sys2Proof.Machine
end

