-- ==== Sys2Proof/WellFormed.lean ====
section
/-! DEFINITION. When a command is one the part can meet. Branches, entries, characters and strap levels are bounded by their
types; what is left to check is the number of cells a target sends in one exchange. -/

namespace Sys2Proof

/-- The most cells a target sends in one exchange: 32 data cells and the check cell of a READ (R70). -/
def Instr.maxCells : Nat := 33

/-- A target sends no more cells than the longest exchange has for it. -/
def TargetAnswer.wellFormed : TargetAnswer → Bool
  | .cells sent => decide (sent.length ≤ Instr.maxCells)
  | .absent | .busy | .rejected => true

/-- The command can occur at the ports of the part. -/
def Instr.wellFormed : Instr → Bool
  | .exchangeEnd _ answer _ _ => answer.wellFormed
  | .receiveCharacter _ | .frameReceived _ | .characterError | .gapTimeout | .breakStart | .breakEnd
  | .read | .write | .writePosted | .watch | .cancel | .identify | .getStatus | .stageRoute | .readRoute
  | .commitImmediate | .commitQuiesce | .discard | .setBranchEnable | .setBranchDisable | .getBranch
  | .setArbiter | .resetSoft | .resetFull | .unknownKind
  | .engineTakeItem .. | .holdTimeout _ | .retryTimerExpiry .. | .recoveryEnd .. | .recoveryTimerExpiry _
  | .periodicRecoveryEnd .. | .watchTimerExpiry _ | .quiesceDrain | .quiesceTimeout | .frameEnd _
  | .sourceReadyIdle | .powerFail | .powerStable _ | .rstnAssert | .rstnRelease _ | .startOfCharacter _
  | .lineReturnsToMarking | .resetClosingMarkEnd _ => true

end Sys2Proof
end

