-- ==== Sys2Proof/Tests/Slice0.lean ====
section
/-! SUPPORT. Tests on fixed values, written from the tables and worked examples of spec/, and for every statement with
hypotheses one theorem that meets them, clause by clause, at the ends of their ranges. -/

open Sys2Proof Sys2Proof.Machine

namespace Sys2Proof.Tests

-- Each kernel evaluation waits for the theorems before it, so that elaborating many at once only costs threads.
set_option Elab.async false

/-! ## Small states -/

/-- What a command leaves. -/
def after (c : Instr) (s : State) : State :=
  match exec c s with
  | .next t => t
  | _ => s

/-- A DIRECT slot over 0x0000..0x00FF, every right on: B0, device 1, register base 0. -/
def slotD : Route :=
  { kind := .direct, base := 0x0000#16, limit := 0x00FF#16, rights := ⟨true, true, true⟩, members := [⟨0#8, 1#8, 0#8⟩] }

/-- A GROUP slot over 0x0100..0x01FF: B0 device 1 and B1 device 30. -/
def slotG : Route :=
  { kind := .group, base := 0x0100#16, limit := 0x01FF#16, rights := ⟨false, true, false⟩,
    members := [⟨0#8, 1#8, 0#8⟩, ⟨1#8, 30#8, 0#8⟩] }

/-- A DENY slot over 0x0200..0x020F. -/
def slotN : Route :=
  { kind := .deny, base := 0x0200#16, limit := 0x020F#16, rights := ⟨false, false, false⟩, members := [] }

/-- The three slots, the rest UNUSED. -/
def bank : Bank := Table.set (Table.set (Table.set Bank.reset 0 slotD) 1 slotG) 31 slotN

/-- An enabled engine that waits for an item. -/
def idle : Engine := { Engine.reset with state := .idle, config := { BranchConfig.reset with enabled := true } }

/-- The part with READY sent, the three slots active and staged, B0 and B1 enabled. -/
def ready : State :=
  { State.reset with
    routes := { RouteUnit.reset with active := bank, staging := bank }
    engines := #v[idle, idle, Engine.reset, Engine.reset]
    notices := { NoticeUnit.reset with sequence := 1#8 } }

/-- A frame at the head of the inbound queue. -/
def atHead (s : State) (fr : Frame) : State := s.setRx { s.rx with inbound := [fr] }

/-- The part stopped by the RSTn condition. -/
def held : State := { ready with supply := { Supply.running with pinCondition := true } }

/-- A receiver in the middle of a frame. -/
def receiving (st : ReceiveState) (p : PartialFrame) : State :=
  ready.setRx { ready.rx with state := st, building := some p, gap := some 5 }

/-- A receiver in BREAK. -/
def broken : State := { ready.setRx { ready.rx with state := .inBreak, lastTag := some 7#8 } with trxd := .spacing }

/-- An entry of a DIRECT request on B0 with its one member in a state. -/
def direct (kind tag : Byte) (st : EntryState) (m : MemberState) : Entry :=
  { Entry.free with
    state := st, cls := .data, kind := kind, tag := tag, address := some 0#16, length := some 1,
    members := [⟨0, 1#8, 0#8, m, none⟩], data := if kind = 2#8 then [0xAA#8] else [], source := .branch 0,
    posted := kind == 3#8, watch := if kind = 4#8 then some ⟨[0xFF#8], [0x10#8], 1, 2, none⟩ else none }

/-- Entry E0 beside what it counts. -/
def withEntry (s : State) (e : Entry) : State :=
  { s with table := { s.table with entries := Table.set s.table.entries 0 e }.raise e.cls }

/-- Engine B0 replaced. -/
def onB0 (s : State) (g : Engine) : State := s.setEngine 0 g

/-- Engine B0 with item (E0, 0) in service. -/
def serving (st : EngineState) (w : Wire) : Engine :=
  { idle with state := st, inService := some ⟨0, 0⟩, copy := some idle.config, wire := w }

/-- An exchange of a request of a kind runs on B0. -/
def exchanging (kind : Byte) : State :=
  onB0 (withEntry ready (direct kind 9#8 .active .inService)) (serving .exchange (.exchange []))

/-- A recovery of a cause runs on B0 for a READ. -/
def recovering (c : RecoveryCause) : State :=
  onB0 (withEntry ready (direct 1#8 9#8 .active .inService)) (serving .recovery (.recovery c))

/-- A WATCH waits on B0 with its timer. -/
def waiting : State :=
  (withEntry ready (direct 4#8 9#8 .waiting .pending)).setTimers [⟨0, 1152000⟩]

/-- A COMMIT waits in E0. -/
def quiescing : State :=
  (withEntry ready
    { Entry.free with state := .held, cls := .control, kind := 0x15#8, tag := 9#8 }).setRoutes
    { ready.routes with pendingCommit := some ⟨0, 9#8, 1152000⟩ }

/-- A response of E0 is on TTXD. -/
def answering (e : Entry) : State := { withEntry ready e with tx := some ⟨.response 0, []⟩ }

/-- The entry of an answered request. -/
def sent (scope : Option ResetScope) : Entry :=
  { Entry.free with state := .sending, kind := 0x19#8, tag := 9#8, status := some .ok, scope := scope }

/-! ## Frames, byte by byte from the layouts of 12.3 and 12.4 -/

def fRead : Frame := ⟨0x01#8, 5#8, [0x00#8, 0xFF#8, 1#8]⟩
def fWrite : Frame := ⟨0x02#8, 5#8, [0x00#8, 0x00#8, 2#8, 0x11#8, 0x22#8]⟩
def fPosted : Frame := ⟨0x03#8, 5#8, [0x00#8, 0x00#8, 1#8, 0x11#8]⟩
def fWatch : Frame := ⟨0x04#8, 5#8, [0x00#8, 0x00#8, 1#8, 1#8, 255#8, 0x0F#8, 0x03#8]⟩
def fCancel : Frame := ⟨0x10#8, 5#8, [9#8]⟩
def fIdentify : Frame := ⟨0x11#8, 5#8, []⟩
def fStatus : Frame := ⟨0x12#8, 5#8, []⟩
def fStage : Frame :=
  ⟨0x13#8, 5#8, [31#8, 1#8, 0x12#8, 0x34#8, 0x12#8, 0x40#8, 0b011#8, 1#8, 2#8, 7#8, 0x20#8]⟩
def fReadRoute : Frame := ⟨0x14#8, 5#8, [0#8, 0#8]⟩
def fCommit : Frame := ⟨0x15#8, 5#8, [0#8, 0#8, 0#8, 0#8, 0#8]⟩
def fQuiesce : Frame := ⟨0x15#8, 5#8, [0#8, 0#8, 1#8, 0xEA#8, 0x60#8]⟩
def fDiscard : Frame := ⟨0x16#8, 5#8, []⟩
def fEnable : Frame := ⟨0x17#8, 5#8, [3#8, 1#8, 2#8, 50#8, 3#8, 2#8, 1#8]⟩
def fDisable : Frame := ⟨0x17#8, 5#8, [0#8, 0#8, 3#8, 255#8, 15#8, 255#8, 3#8]⟩
def fGetBranch : Frame := ⟨0x18#8, 5#8, [0#8]⟩
def fArbiter : Frame := ⟨0x19#8, 5#8, [1#8, 8#8, 1#8, 0#8, 1#8, 2#8, 3#8, 4#8, 5#8]⟩
def fSoft : Frame := ⟨0x1A#8, 5#8, [0#8]⟩
def fFull : Frame := ⟨0x1A#8, 5#8, [1#8]⟩
def fUnknown : Frame := ⟨0x05#8, 5#8, []⟩

/-! ## Well-formedness -/

theorem test_exchange_cells_bounded :
    (Instr.exchangeEnd 0 (.cells (List.replicate 33 0#8)) true true).wellFormed = true ∧
      (Instr.exchangeEnd 0 (.cells (List.replicate 34 0#8)) true true).wellFormed = false := by decide +kernel

theorem test_other_commands_wellFormed :
    Instr.read.wellFormed = true ∧ (Instr.exchangeEnd 3 .busy true true).wellFormed = true ∧
      (Instr.frameEnd 3#2).wellFormed = true := by decide +kernel

theorem test_data_lengths :
    (Request.read 0#16 0).wellFormed = false ∧ (Request.read 0#16 33).wellFormed = false ∧
      (Request.read 0#16 32).wellFormed = true ∧ (Request.write false 0#16 []).wellFormed = false ∧
      (Request.write true 0#16 (List.replicate 33 0#8)).wellFormed = false := by decide +kernel

theorem test_watch_ranges :
    (Request.watch 0#16 0 1 [0#8] [0#8]).wellFormed = false ∧ (Request.watch 0#16 1 256 [0#8] [0#8]).wellFormed = false ∧
      (Request.watch 0#16 1 1 [0#8] []).wellFormed = false ∧
      (Request.watch 0#16 1 1 (List.replicate 5 0#8) (List.replicate 5 0#8)).wellFormed = false ∧
      (Request.watch 0#16 255 255 (List.replicate 4 0#8) (List.replicate 4 0#8)).wellFormed = true := by decide +kernel

theorem test_quiesce_timeout_range :
    (Request.commit 0#16 .quiesce 0#16).wellFormed = false ∧ (Request.commit 0#16 .quiesce 60001#16).wellFormed = false ∧
      (Request.commit 0#16 .quiesce 60000#16).wellFormed = true ∧ (Request.commit 0#16 .immediate 0#16).wellFormed = true := by
  decide +kernel

theorem test_record_ranges :
    (Request.stageRoute 0 { slotG with members := List.replicate 5 ⟨0#8, 1#8, 0#8⟩ }).wellFormed = false ∧
      (Request.setBranch 0 { BranchConfig.reset with speed := 4 }).wellFormed = false ∧
      (Request.setBranch 0 { BranchConfig.reset with hold := 0 }).wellFormed = false ∧
      (Request.setBranch 0 { BranchConfig.reset with busyLimit := 16 }).wellFormed = false ∧
      (Request.setBranch 0 { BranchConfig.reset with retryDelay := 256 }).wellFormed = false ∧
      (Request.setBranch 0 { BranchConfig.reset with checkLimit := 4 }).wellFormed = false ∧
      (Request.setArbiter { ArbiterConfig.reset with burst := 3 }).wellFormed = false ∧
      (Request.setArbiter { ArbiterConfig.reset with order := [.ntc, .ntc, .branch 0, .branch 1, .branch 2, .branch 3] }).wellFormed =
        false := by decide +kernel

theorem test_no_word_spells_a_command :
    decodeTableWord 8 0 = none ∧ decodeTableWord 16 0xFFFF = none ∧ ready.withFetchWord 16 5 = ready :=
  ⟨rfl, rfl, rfl⟩

/-! ## Request frames (12.3, 12.4) -/

theorem test_read_frame : fRead.request = some (.read 0x00FF#16 1) := by decide +kernel

theorem test_write_frames :
    fWrite.request = some (.write false 0#16 [0x11#8, 0x22#8]) ∧ fPosted.request = some (.write true 0#16 [0x11#8]) := by
  decide +kernel

theorem test_watch_frame : fWatch.request = some (.watch 0#16 1 255 [0x0F#8] [0x03#8]) := by decide +kernel

theorem test_stage_frame :
    fStage.request =
      some (.stageRoute 31
        { kind := .direct, base := 0x1234#16, limit := 0x1240#16, rights := ⟨true, true, false⟩,
          members := [⟨2#8, 7#8, 0x20#8⟩] }) := by decide +kernel

theorem test_commit_frames :
    fCommit.request = some (.commit 0#16 .immediate 0#16) ∧ fQuiesce.request = some (.commit 0#16 .quiesce 60000#16) := by
  decide +kernel

theorem test_set_branch_frames :
    fEnable.request =
        some (.setBranch 3 { enabled := true, speed := 2, hold := 50, busyLimit := 3, retryDelay := 2, checkLimit := 1 }) ∧
      fDisable.request =
        some (.setBranch 0 { enabled := false, speed := 3, hold := 255, busyLimit := 15, retryDelay := 255, checkLimit := 3 }) := by
  decide +kernel

theorem test_arbiter_frame :
    fArbiter.request =
      some (.setArbiter
        { mode := .round, burst := 8, yieldPolicy := .atBurst,
          order := [.branch 0, .branch 1, .branch 2, .branch 3, .ctl, .ntc] }) := by decide +kernel

theorem test_short_frames :
    fCancel.request = some (.cancel 9#8) ∧ fIdentify.request = some .identify ∧ fStatus.request = some .getStatus ∧
      fReadRoute.request = some (.readRoute .active 0) ∧ fDiscard.request = some .discard ∧
      fGetBranch.request = some (.getBranch 0) ∧ fSoft.request = some (.reset .soft) ∧ fFull.request = some (.reset .full) := by
  decide +kernel

/-- R192: a payload byte too many, a code out of range, a reserved bit of the rights. -/
theorem test_malformed_frames :
    (Frame.mk 0x01#8 0#8 [0#8, 0#8, 1#8, 0#8]).request = none ∧ (Frame.mk 0x11#8 0#8 [0#8]).request = none ∧
      (Frame.mk 0x14#8 0#8 [2#8, 0#8]).request = none ∧ (Frame.mk 0x14#8 0#8 [0#8, 32#8]).request = none ∧
      (Frame.mk 0x13#8 0#8 [0#8, 0#8, 0#8, 0#8, 0#8, 0#8, 0b1000#8, 0#8]).request = none ∧ fUnknown.request = none := by
  decide +kernel

/-! ## Checks (R72, R167) -/

/-- The check value of the CRC-16 over the digits 1 to 9. -/
theorem test_crc16 :
    crc16 [0x31#8, 0x32#8, 0x33#8, 0x34#8, 0x35#8, 0x36#8, 0x37#8, 0x38#8, 0x39#8] = 0x29B1#16 := by decide +kernel

/-- The running check value of the worked read of 4.10, cell by cell. -/
theorem test_crc8 :
    crc8 [0x49#8] = 0xF8#8 ∧ crc8 [0x49#8, 0x10#8] = 0x96#8 ∧ crc8 [0x49#8, 0x10#8, 0x04#8] = 0xF7#8 ∧
      crc8 [0x49#8, 0x10#8, 0x04#8, 0x12#8] = 0xB5#8 ∧ crc8 [0x49#8, 0x10#8, 0x04#8, 0x12#8, 0x34#8] = 0x8E#8 ∧
      crc8 [0x49#8, 0x10#8, 0x04#8, 0x12#8, 0x34#8, 0x56#8] = 0x06#8 ∧
      crc8 [0x49#8, 0x10#8, 0x04#8, 0x12#8, 0x34#8, 0x56#8, 0x78#8] = 0x7D#8 := by decide +kernel

/-- The header cell of the worked read of 4.10. -/
theorem test_header : headerCell 9#8 true = 0x49#8 ∧ headerCell 30#8 false = 0xF2#8 := by decide +kernel

/-- 4.10: 70 bit periods of 8 µs, and a recovery of 144 µs. -/
theorem test_durations :
    readBitPeriods 4 * branchBitUs 1 = 560 ∧ recoveryBitPeriods * branchBitUs 1 = 144 ∧
      bitUnits 0#2 * 115200 = 1152 * 1000000 ∧ bitUnits 3#2 * 921600 = 1152 * 1000000 := by decide +kernel

/-- 4.2: the three status cells, and anything else. -/
theorem test_status_cells :
    statusResult 0x5A#8 = .good [] ∧ statusResult 0x33#8 = .busy ∧ statusResult 0x0F#8 = .rejected ∧
      statusResult 0xFF#8 = .checkFailure := by decide +kernel

/-- R164: the start byte 0xB5 on TTXD: start bit, least significant bit first, stop bit. -/
theorem test_character :
    characterLevels 0xB5#8 =
      [.spacing, .marking, .spacing, .marking, .spacing, .marking, .marking, .spacing, .marking, .marking] := by decide +kernel

/-- R65, R68: the header cell 0x49 of the worked read goes out most significant bit first; R73: that read lasts 70 bit periods. -/
theorem test_cell :
    cellBits 0x49#8 = [false, true, false, false, true, false, false, true] ∧
      (exchangeDrive true [0x49#8, 0x10#8, 0x04#8]).length = 2 * 70 := by decide +kernel

/-- R65, R68, R69: BDA low in the presence slot, then the levels of ACCEPT, 0x5A, most significant bit first; BDA left high in the
presence slot is an absent device. -/
theorem test_received_cell :
    answerOnLine .low [.low, .released, .low, .released, .released, .low, .released, .low] = .cells [0x5A#8] ∧
      answerOnLine .released [] = .absent := by decide +kernel

/-! ## One step of each command -/

theorem test_receive_start : (after (.receiveCharacter 0xB5#8) ready).rx.state = .length := by decide +kernel

theorem test_receive_length_too_long :
    (after (.receiveCharacter 41#8) (receiving .length ⟨none, [], []⟩)).notices.queue = [.linkError .length 1] := by decide +kernel

/-- R167, R170: an IDENTIFY with tag 5; its CRC covers 02 11 05. -/
theorem test_frame_received :
    (after (.frameReceived (Half.low (crc16 [2#8, 0x11#8, 5#8])))
      (receiving .check ⟨some 2, [0x11#8, 5#8], [Half.high (crc16 [2#8, 0x11#8, 5#8])]⟩)).rx.inbound = [fIdentify] := by
  decide +kernel

theorem test_frame_received_overrun :
    (after (.frameReceived (Half.low (crc16 [2#8, 0x11#8, 5#8])))
      (ready.setRx { ready.rx with
        state := .check, building := some ⟨some 2, [0x11#8, 5#8], [Half.high (crc16 [2#8, 0x11#8, 5#8])]⟩, gap := some 5,
        inbound := List.replicate 8 fStatus })).notices.queue = [.overrun 5#8 1] := by decide +kernel

theorem test_character_error :
    (after .characterError (receiving .body ⟨some 2, [], []⟩)).notices.queue = [.linkError .char 1] ∧
      (after .characterError ready).rx.waiting = true := by decide +kernel

theorem test_gap_timeout :
    (after .gapTimeout (receiving .body ⟨some 2, [], []⟩)).notices.queue = [.linkError .gap 1] := by decide +kernel

theorem test_break_start : (after .breakStart (atHead ready fRead)).rx.inbound = [] := by decide +kernel

theorem test_break_end : (after .breakEnd broken).notices.queue = [.resync (some 7#8)] := by decide +kernel

theorem test_start_of_character :
    (after (.startOfCharacter false) (receiving .body ⟨some 2, [], []⟩)).rx.gap = some 1600000 ∧
      (after (.startOfCharacter true) ready).rx.inCharacter = false := by decide +kernel

theorem test_line_returns :
    (after .lineReturnsToMarking { ready with trxd := .spacing, rx := { ready.rx with waiting := true } }).rx.waiting =
      false := by decide +kernel

theorem test_read_placed :
    ((after .read (atHead ready fRead)).engine 0).queue = [⟨0, 0⟩] ∧
      (((after .read (atHead ready fRead)).entry 0).members.map (·.register)) = [0xFF#8] := by decide +kernel

theorem test_read_of_a_group_refused :
    ((after .read (atHead ready ⟨0x01#8, 5#8, [0x01#8, 0x00#8, 1#8]⟩)).entry 0).status = some .accessDenied ∧
      ((after .read (atHead ready ⟨0x01#8, 5#8, [0x00#8, 0xFF#8, 2#8]⟩)).entry 0).status = some .range := by decide +kernel

theorem test_write_group :
    (after .write (atHead ready ⟨0x02#8, 5#8, [0x01#8, 0x00#8, 1#8, 0xAA#8]⟩)).engine 1 = { idle with queue := [⟨0, 1⟩] } := by
  decide +kernel

theorem test_write_posted_refused :
    (after .writePosted (atHead ready ⟨0x03#8, 5#8, [0x09#8, 0x00#8, 1#8, 0xAA#8]⟩)).notices.queue =
      [.postedFailed 5#8 .noRoute []] := by decide +kernel

theorem test_watch_placed : ((after .watch (atHead ready fWatch)).entry 0).state = .queued := by decide +kernel

theorem test_cancel_waiting :
    ((after .cancel (atHead waiting fCancel)).entry 0).status = some .cancelled ∧
      (after .cancel (atHead waiting fCancel)).timers = [] := by decide +kernel

theorem test_cancel_not_found : ((after .cancel (atHead ready fCancel)).entry 0).status = some .notFound := by decide +kernel

theorem test_identify :
    ((after .identify (atHead ready fIdentify)).entry 0).reply.bytes =
      [0x57#8, 0x41#8, 0x04#8, 0x16#8, 1#8, 16#8, 14#8, 32#8, 4#8, 8#8, 8#8, 0#8, 0#8, 0#8] := by decide +kernel

/-- R193: no commit pending, mode 0xFF and time 0. -/
theorem test_get_status :
    ((after .getStatus (atHead ready fStatus)).entry 0).reply.bytes =
      [8#8, 0#8, 1#8, 0#8, 0xFF#8, 0#8, 0#8, 0#8, 1#8, 1#8, 0#8, 0#8, 0#8, 0#8, 0#8, 0#8] := by decide +kernel

theorem test_stage_route :
    (Table.get (after .stageRoute (atHead ready fStage)).routes.staging 31).members = [⟨2#8, 7#8, 0x20#8⟩] := by decide +kernel

theorem test_read_route :
    ((after .readRoute (atHead ready fReadRoute)).entry 0).reply.bytes =
      [0#8, 0#8, 1#8, 0#8, 0#8, 0#8, 0xFF#8, 7#8, 1#8, 0#8, 1#8, 0#8, 0#8, 0#8] := by decide +kernel

theorem test_commit_immediate : (after .commitImmediate (atHead ready fCommit)).routes.generation = 1#16 := by decide +kernel

theorem test_commit_quiesce :
    (after .commitQuiesce (atHead (withEntry ready (direct 1#8 9#8 .queued .pending)) fQuiesce)).routes.pendingCommit =
      some ⟨1, 5#8, 60000 * 1152000⟩ := by decide +kernel

theorem test_discard :
    (after .discard (atHead (ready.setRoutes { ready.routes with staging := Bank.reset }) fDiscard)).routes.staging = bank := by
  decide +kernel

theorem test_set_branch_enable : ((after .setBranchEnable (atHead ready fEnable)).engine 3).state = .idle := by decide +kernel

theorem test_set_branch_disable :
    ((after .setBranchDisable (atHead ready fDisable)).engine 0).state = .disabled ∧
      ((after .setBranchDisable (atHead (exchanging 1#8) fDisable)).engine 0).disablePending = true := by decide +kernel

theorem test_get_branch :
    ((after .getBranch (atHead ready fGetBranch)).entry 0).reply.bytes =
      [0#8, 1#8, 1#8, 100#8, 3#8, 2#8, 1#8, 1#8, 0#8, 0#8, 0#8] := by decide +kernel

theorem test_set_arbiter : (after .setArbiter (atHead ready fArbiter)).arbiter.config.burst = 8 := by decide +kernel

theorem test_resets_halt :
    (after .resetSoft (atHead ready fSoft)).halt = true ∧
      ((after .resetFull (atHead ready fFull)).entry 0).scope = some .full := by decide +kernel

theorem test_unknown_kind :
    ((after .unknownKind (atHead ready fUnknown)).entry 0).status = some .badRequest ∧
      (after .unknownKind (atHead ready fUnknown)).table.controlInUse = 1 := by decide +kernel

theorem test_engine_take_item :
    ((after (.engineTakeItem 0 true true)
      (onB0 (withEntry ready (direct 1#8 9#8 .queued .pending)) { idle with queue := [⟨0, 0⟩] })).engine 0).wire =
      .exchange [0x09#8, 0x00#8, 0x01#8] := by decide +kernel

/-- The data 0x12 and its check over 09 00 01 12. -/
theorem test_exchange_end :
    ((after (.exchangeEnd 0 (.cells [0x12#8, crc8 [0x09#8, 0x00#8, 0x01#8, 0x12#8]]) true true) (exchanging 1#8)).entry 0).data =
        [0x12#8] ∧
      ((after (.exchangeEnd 0 .busy true true) (exchanging 2#8)).engine 0).retryTimer = some 2304000 := by decide +kernel

theorem test_hold_timeout : ((after (.holdTimeout 0) (exchanging 1#8)).engine 0).state = .recovery := by decide +kernel

theorem test_retry_expiry :
    ((after (.retryTimerExpiry 0 true true)
      (onB0 (exchanging 1#8) { serving .retryWait .released with retryTimer := some 1 })).engine 0).state = .exchange := by
  decide +kernel

theorem test_recovery_end :
    ((after (.recoveryEnd 0 true true) (recovering .afterHold)).entry 0).status = some .holdTimeout ∧
      (after (.recoveryEnd 0 true false) (recovering .beforeTry)).notices.queue = [.branchState 0 .faulted .stuckLine] := by
  decide +kernel

theorem test_recovery_timer_expiry :
    ((after (.recoveryTimerExpiry 0)
      (onB0 ready { idle with state := .faulted, recoveryTimer := some 1 })).engine 0).wire = .attempt := by decide +kernel

theorem test_periodic_recovery_end :
    ((after (.periodicRecoveryEnd 0 false true) (onB0 ready { idle with state := .faulted, wire := .attempt })).engine 0).recoveryTimer =
      some 115200000 := by decide +kernel

theorem test_watch_timer_expiry : ((after (.watchTimerExpiry 0) waiting).engine 0).queue = [⟨0, 0⟩] := by decide +kernel

theorem test_quiesce_drain : (after .quiesceDrain quiescing).routes.generation = 1#16 := by decide +kernel

theorem test_quiesce_timeout : ((after .quiesceTimeout quiescing).entry 0).status = some .quiesceTimeout := by decide +kernel

theorem test_frame_end :
    ((after (.frameEnd 0#2) (answering (sent none))).entry 0).state = .free ∧
      (after (.frameEnd 2#2) (answering (sent (some .full)))).rx.rate = 2#2 := by decide +kernel

/-- R148, 12.6: READY after a power-on, 8 slots free. -/
theorem test_source_ready_idle :
    (after .sourceReadyIdle State.reset).tx.map (fun x => x.bytes.take 10) =
      some [0xB5#8, 8#8, 0x81#8, 0#8, 8#8, 0#8, 1#8, 1#8, 0#8, 0#8] := by decide +kernel

theorem test_power :
    (after .powerFail (exchanging 1#8)).stopped = true ∧
      (after (.powerStable 1#2) { held with supply := ⟨true, false, true⟩ }).notices.queue = [.ready .power 0#16] := by decide +kernel

theorem test_rstn :
    (after .rstnAssert ready).stopped = true ∧ (after (.rstnRelease 1#2) held).notices.queue = [.ready .pin 0#16] := by decide +kernel

/-- R93: an engine in EXCHANGE first ends its closing mark and then goes DISABLED; one in another state is DISABLED at once. -/
theorem test_reset_closing_mark_end :
    (((after (.frameEnd 0#2) { exchanging 1#8 with
        tx := some ⟨.response 1, []⟩
        table := { (exchanging 1#8).table with
          entries := Table.set (exchanging 1#8).table.entries 1 (sent (some .full)) } }).engine 0) =
        { Engine.reset with state := .exchange, wire := .closingMark }) ∧
      (after (.resetClosingMarkEnd 0) (onB0 ready { Engine.reset with state := .exchange, wire := .closingMark })).engine 0 =
        Engine.reset ∧
      ((after (.resetClosingMarkEnd 0) (onB0 ready { Engine.reset with wire := .closingMark })).engine 0).wire = .released := by
  decide +kernel

/-- R187: a character that the reset cut off is not completed. -/
theorem test_cut_character :
    let s := ready.setRx { ready.rx with cut := true }
    (after (.receiveCharacter 0xB5#8) s).rx = ready.rx ∧ (after .characterError s).notices.queue = [] := by decide +kernel

/-- R188: the end of a break taken after a reset that takes effect at the same moment hands RESYNC none. -/
theorem test_break_end_after_reset :
    (after .breakEnd (after (.frameEnd 0#2) { answering (sent (some .full)) with
      trxd := .spacing, rx := broken.rx })).notices.queue = [.resync none] := by decide +kernel

/-- R37, R99: a watch with cancel requested completes CANCELLED with its last allowed read, and so does one with reads left,
and the member ends OK in both (log entry 35). -/
theorem test_cancelled_last_read :
    let t (reads : Nat) := after (.exchangeEnd 0 (.cells [0x12#8, crc8 [0x09#8, 0x00#8, 0x01#8, 0x12#8]]) true true)
      (onB0 (withEntry ready { direct 4#8 9#8 .active .inService with
        cancelRequested := true, watch := some ⟨[0xFF#8], [0x10#8], 1, reads, none⟩ }) (serving .exchange (.exchange [])))
    ((t 1).entry 0).status = some .cancelled ∧ ((t 2).entry 0).status = some .cancelled ∧
      ((t 1).entry 0).members.map (·.outcome) = [some .ok] ∧
      ((t 2).entry 0).members.map (·.outcome) = [some .ok] := by decide +kernel

/-! ## Witnesses: the hypotheses of each statement, met clause by clause -/

/-- What `Takes` asks of a frame at the head, as one test. -/
theorem takes {s : State} {fr : Frame} {i : EntryId}
    (h : (atHead s fr).admissible fr.kind = true ∧ (atHead s fr).tagInUse fr.tag = false ∧
      (atHead s fr).lowestFree = some i) : (atHead s fr).Takes fr [] i := ⟨rfl, h.1, h.2.1, h.2.2⟩

/-- The gap timer runs and nothing is due at once. -/
def counting (n : Nat) : State := ready.setRx { ready.rx with state := .length, building := some ⟨none, [], []⟩, gap := some n }

theorem witness_EmptyQueueLetsTimePass :
    (held.pending = [] ∧ held.stopped = true) ∧ (State.reset.pending = [] ∧ State.reset.immediate = true) ∧
      (counting 1).timerDue = true ∧
      ((counting 2).pending = [] ∧ (counting 2).stopped = false ∧ (counting 2).immediate = false ∧
        (counting 2).timerDue = false) := by decide +kernel

theorem witness_StoppedPartDoesNothing : held.stopped = true ∧ Instr.isSupply .read = false := by decide +kernel

theorem witness_OnlyCommitsAndResetsChangeTheActiveBank :
    (exec .stageRoute (atHead ready fStage) = .next (after .stageRoute (atHead ready fStage)) ∧
      Instr.stageRoute ≠ .commitImmediate ∧ Instr.stageRoute ≠ .commitQuiesce ∧ Instr.stageRoute ≠ .quiesceDrain ∧
      ∀ r, Instr.stageRoute ≠ .powerStable r ∧ Instr.stageRoute ≠ .rstnRelease r) ∧
    (exec (.frameEnd 0#2) (answering (sent none)) = .next (after (.frameEnd 0#2) (answering (sent none))) ∧
      ((answering (sent none)).entry 0).scope = none ∧ (answering (sent none)).routes.pendingCommit = none ∧
      ∀ fr ∈ (answering (sent none)).rx.inbound, fr.kind ≠ 0x15#8) ∧
    ((answering (sent (some .soft))).entry 0).scope ≠ some .full :=
  ⟨⟨rfl, by decide, by decide, by decide, by decide⟩, ⟨rfl, by decide +kernel⟩, by decide +kernel⟩

theorem witness_EnginesActIndependently :
    (1 : BranchId) ≠ 0 ∧ exec (.holdTimeout 0) (exchanging 1#8) = .next (after (.holdTimeout 0) (exchanging 1#8)) ∧
      exec (.exchangeEnd 0 .absent true true) (exchanging 1#8) =
        .next (after (.exchangeEnd 0 .absent true true) (exchanging 1#8)) := ⟨by decide, rfl, rfl⟩

theorem witness_HuntAndLengthCharacters :
    ready.takesCharacters = true ∧ ready.rx.state = .hunt ∧ (0xB4#8 : Byte) ≠ 0xB5#8 ∧
      (receiving .length ⟨none, [], []⟩).takesCharacters = true ∧ (receiving .length ⟨none, [], []⟩).rx.state = .length ∧
      2 ≤ (2#8).toNat ∧ (40#8).toNat ≤ 40 ∧ (1#8).toNat < 2 ∧ 40 < (41#8).toNat := by decide +kernel

theorem witness_BodyAndCheckCharacters :
    (receiving .body ⟨some 2, [], []⟩).takesCharacters = true ∧
      (receiving .body ⟨some 2, [], []⟩).rx.building = some ⟨some 2, [], []⟩ ∧
      (receiving .body ⟨some 2, [], []⟩).rx.state = .body ∧ ([] : List Byte).length + 1 < 2 ∧ [0x11#8].length + 1 = 2 ∧
      (receiving .check ⟨some 2, [0x11#8, 5#8], []⟩).rx.state = .check ∧
      (receiving .check ⟨some 2, [0x11#8, 5#8], [7#8]⟩).rx.building = some ⟨some 2, [0x11#8, 5#8], [7#8]⟩ := by decide +kernel

theorem witness_CharacterErrorsGapsAndLineFalls :
    (ready.takesCharacters = true ∧ ready.rx.state = .hunt) ∧
      ((receiving .check ⟨some 2, [], []⟩).takesCharacters = true ∧ (receiving .check ⟨some 2, [], []⟩).stopped = false ∧
        (receiving .check ⟨some 2, [], []⟩).rx.state = .check) ∧
      (ready.trxd = .marking ∧ ready.rx.inCharacter = false ∧ ready.rx.waiting = false) ∧
      (({ ready.rx with inCharacter := true } : Receiver).inCharacter = true ∧ broken.rx.state = .inBreak ∧
        ready.rx.state ≠ .inBreak) ∧
      ((ready.setRx { ready.rx with cut := true }).rx.cut = true ∧
        (ready.setRx { ready.rx with cut := true }).stopped = false) := by decide +kernel

theorem witness_BreakEmptiesTheQueueAndEndsWithResync :
    (ready.stopped = false ∧ ready.rx.state ≠ .inBreak) ∧ (broken.stopped = false ∧ broken.rx.state = .inBreak) ∧
      ((ready.setRx { ready.rx with breakEnding := true }).rx.state = .hunt ∧
        (ready.setRx { ready.rx with breakEnding := true }).rx.breakEnding = true) := by decide +kernel

theorem witness_ReceiverDeliversEveryFrame :
    ready.takesCharacters = true ∧ ready.rx.state = .hunt ∧ fIdentify.payload.length ≤ 38 ∧
      (List.replicate 38 0#8).length ≤ 38 := by decide +kernel

theorem witness_HandedNoticeIsMergedAppendedOrDropped :
    (Notice.credit ∈ [Notice.credit]) ∧
      (([.credit, .overrun 1#8 254, .credit] : List Notice) = [.credit] ++ .overrun 1#8 254 :: [.credit] ∧
        ∀ x ∈ [Notice.credit], x.code ≠ 0x04#8) ∧
      (([.linkError .gap 255] : List Notice) = [] ++ .linkError .gap 255 :: [] ∧
        ∀ x ∈ ([] : List Notice), x.code ≠ 0x05#8) ∧
      (Notice.credit.code ∈ [0x03#8, 0x04#8, 0x05#8] ∧
        ∀ y ∈ List.replicate 8 (Notice.resync none), y.code ≠ Notice.credit.code) ∧
      (Notice.resync none).code ∉ [0x03#8, 0x04#8, 0x05#8] := by decide +kernel

theorem witness_RequestsAndTheirFramesCorrespond :
    (Request.write true 0xFFFF#16 (List.replicate 32 0xFF#8)).wellFormed = true ∧
      (Request.setArbiter ArbiterConfig.reset).wellFormed = true ∧ (Request.stageRoute 31 slotG).wellFormed = true ∧
      fStage.request = some (.stageRoute 31
        { kind := .direct, base := 0x1234#16, limit := 0x1240#16, rights := ⟨true, true, false⟩,
          members := [⟨2#8, 7#8, 0x20#8⟩] }) := by decide +kernel

theorem witness_LookupDecidesInOrder :
    bank.valid = true ∧
      ((Table.get bank 0).kind = .direct ∧ (Table.get bank 0).base.toNat ≤ (0x00FF#16).toNat ∧
        (0x00FF#16).toNat ≤ (Table.get bank 0).limit.toNat) ∧
      ((Table.get bank 1).kind = .group ∧ (Table.get bank 1).base.toNat ≤ (0x0100#16).toNat ∧
        (Table.get bank 1).rights.read = false) ∧
      ((Table.get bank 31).kind = .deny ∧ (Table.get bank 31).base.toNat ≤ (0x020F#16).toNat ∧
        (0x020F#16).toNat ≤ (Table.get bank 31).limit.toNat) ∧
      ∀ j : SlotId, (Table.get bank j).kind = .unused ∨ (0xFFFF#16).toNat < (Table.get bank j).base.toNat ∨
        (Table.get bank j).limit.toNat < (0xFFFF#16).toNat := by decide +kernel

theorem witness_LookupTargetsStayInRange :
    bank.valid = true ∧ bank.lookup .read 0x00FF#16 1 = .ok slotD ∧ bank.lookup .write 0x0100#16 32 = .ok slotG ∧
      (⟨1#8, 30#8, 0#8⟩ : RouteMember) ∈ slotG.members := ⟨by decide +kernel, rfl, rfl, by decide⟩

/-- One slot after the others that fails a condition of R9. -/
def failing (r : Route) : Bank := Table.set bank 2 r

/-- R9: the first slot that fails, its first condition, and the lowest slot that an OVERLAP meets. -/
theorem witness_ValidBankMeetsTheConditions :
    bank.validate = none ∧
      (failing { slotD with base := 2#16, limit := 1#16 }).validate = some ⟨2, .order, none⟩ ∧
      (failing { slotD with base := 0x1000#16, limit := 0x1100#16 }).validate = some ⟨2, .size, none⟩ ∧
      (failing { slotD with base := 0x00FF#16, limit := 0x0100#16, members := [] }).validate = some ⟨2, .overlap, some 0⟩ ∧
      (failing { slotD with base := 0x1000#16, limit := 0x1001#16, members := [] }).validate = some ⟨2, .member, none⟩ ∧
      (failing { slotD with base := 0x1000#16, limit := 0x1001#16, members := [⟨0#8, 1#8, 255#8⟩] }).validate =
        some ⟨2, .register, none⟩ ∧
      (failing { slotG with base := 0x1000#16, limit := 0x1000#16, rights := ⟨true, true, false⟩ }).validate =
        some ⟨2, .rights, none⟩ := by decide +kernel

/-- No entry is FREE. -/
def full : State :=
  { ready with table := { entries := Vector.replicate 16 (direct 1#8 9#8 .queued .pending), dataInUse := 14, controlInUse := 2 } }

theorem witness_WaitingHeadStaysUnchanged :
    ((atHead { ready with halt := true } fRead).rx.inbound = [fRead] ∧ (atHead { ready with halt := true } fRead).halt = true) ∧
      (∀ i, ((atHead full fIdentify).entry i).inUse = true) ∧
      (fRead.kind ∈ [0x01#8, 0x02#8, 0x03#8, 0x04#8] ∧ 14 ≤ (atHead full fRead).table.dataInUse) ∧
      (atHead quiescing fWatch).routes.pendingCommit.isSome = true := by decide +kernel

theorem witness_DuplicateTagsAndMalformedFramesAreTurnedAway :
    ((atHead quiescing { fIdentify with tag := 9#8 }).rx.inbound = [{ fIdentify with tag := 9#8 }] ∧
      (atHead quiescing { fIdentify with tag := 9#8 }).admissible 0x11#8 = true ∧
      (atHead quiescing { fIdentify with tag := 9#8 }).tagInUse 9#8 = true) ∧
    (atHead ready fUnknown).Takes fUnknown [] 0 ∧ fUnknown.request = none ∧ fUnknown.kind ≠ 0x03#8 ∧
      Kind.ofCode fUnknown.kind = none ∧
      (atHead ready { fRead with payload := [] }).Takes { fRead with payload := [] } [] 0 ∧
      ({ fRead with payload := [] } : Frame).request = none :=
  ⟨by decide +kernel, takes (by decide +kernel), by decide, by decide, by decide, takes (by decide +kernel), by decide⟩

/-- B0 and B1 disabled. -/
def down : State := { ready with engines := Vector.replicate 4 Engine.reset }

/-- The one member of the DIRECT slot. -/
def memberD : RouteMember := ⟨0#8, 1#8, 0#8⟩

theorem witness_RefusedPostedWriteIsReportedByNotice :
    ((atHead ready { fPosted with payload := [] }).Takes { fPosted with payload := [] } [] 0 ∧
        ({ fPosted with payload := [] } : Frame).request = none) ∧
      ((atHead down fPosted).Takes fPosted [] 0 ∧ fPosted.request = some (.write true 0#16 [0x11#8]) ∧
        down.routes.active.lookup .writePosted 0#16 1 = .ok slotD ∧ slotD.members = [memberD] ∧
        (down.engine (slotD.target 0#16 memberD).branch).up = false) ∧
      ready.routes.active.lookup .writePosted 0x00FF#16 2 = .error .range :=
  ⟨⟨takes (by decide +kernel), by decide⟩, ⟨takes (by decide +kernel), by decide +kernel, rfl, rfl, by decide +kernel⟩, rfl⟩

theorem witness_RefusedDataRequestIsAnsweredFromCtl :
    ((atHead down fRead).Takes fRead [] 0 ∧ (atHead down fWrite).Takes fWrite [] 0 ∧ (atHead down fWatch).Takes fWatch [] 0) ∧
      ready.routes.active.lookup .read 0x0300#16 1 = .error .noRoute ∧
      ready.routes.active.lookup .write 0x0200#16 1 = .error .accessDenied ∧
      ready.routes.active.lookup .watch 0x0100#16 1 = .error .accessDenied ∧
      (slotD.kind = .direct ∧ slotD.members = [memberD] ∧ (down.engine (slotD.target 0x00FF#16 memberD).branch).up = false ∧
        down.routes.active.lookup .read 0x00FF#16 1 = .ok slotD ∧ down.routes.active.lookup .write 0#16 2 = .ok slotD ∧
        down.routes.active.lookup .watch 0#16 1 = .ok slotD) :=
  ⟨⟨takes (by decide +kernel), takes (by decide +kernel), takes (by decide +kernel)⟩, rfl, rfl, rfl, rfl, rfl,
    by decide +kernel, rfl, rfl, rfl⟩

theorem witness_DirectRequestIsPlaced :
    ((atHead ready fRead).Takes fRead [] 0 ∧ (atHead ready fWrite).Takes fWrite [] 0 ∧
        (atHead ready fPosted).Takes fPosted [] 0 ∧ (atHead ready fWatch).Takes fWatch [] 0) ∧
      slotD.members = [memberD] ∧ (ready.engine (slotD.target 0x00FF#16 memberD).branch).up = true ∧
      ready.routes.active.lookup .read 0x00FF#16 1 = .ok slotD ∧ ready.routes.active.lookup .write 0#16 2 = .ok slotD ∧
      ready.routes.active.lookup .writePosted 0#16 1 = .ok slotD ∧ ready.routes.active.lookup .watch 0#16 1 = .ok slotD :=
  ⟨⟨takes (by decide +kernel), takes (by decide +kernel), takes (by decide +kernel), takes (by decide +kernel)⟩, rfl,
    by decide +kernel, rfl, rfl, rfl, rfl⟩

/-- A WRITE, or a WRITE_POSTED, to the GROUP slot. -/
def fGroup (posted : Bool) : Frame :=
  ⟨if posted then 0x03#8 else 0x02#8, 5#8, [0x01#8, 0x00#8, 1#8, 0xAA#8]⟩

theorem witness_GroupWriteSpawnsItsMembers :
    ((atHead ready (fGroup false)).Takes (fGroup false) [] 0 ∧ (atHead ready (fGroup true)).Takes (fGroup true) [] 0) ∧
      (fGroup true).request = some (.write true 0x0100#16 [0xAA#8]) ∧
      (fGroup false).request = some (.write false 0x0100#16 [0xAA#8]) ∧
      ready.routes.active.lookup .write 0x0100#16 1 = .ok slotG ∧
      ready.routes.active.lookup .writePosted 0x0100#16 1 = .ok slotG ∧
      ∃ m ∈ slotG.members, (ready.engine (slotG.target 0x0100#16 m).branch).up = true :=
  ⟨⟨takes (by decide +kernel), takes (by decide +kernel)⟩, by decide +kernel, by decide +kernel, rfl, rfl,
    by decide +kernel⟩

theorem witness_GroupWithEveryBranchDownIsRefused :
    ((atHead down (fGroup false)).Takes (fGroup false) [] 0 ∧ (atHead down (fGroup true)).Takes (fGroup true) [] 0) ∧
      slotG.members ≠ [] ∧ ∀ m ∈ slotG.members, (down.engine (slotG.target 0x0100#16 m).branch).up = false :=
  ⟨⟨takes (by decide +kernel), takes (by decide +kernel)⟩, by decide, by decide +kernel⟩

theorem witness_IdentifyAndGetStatusAnswer :
    (atHead ready fIdentify).Takes fIdentify [] 0 ∧ fIdentify.payload = [] ∧
      (atHead ready { fIdentify with payload := [0#8] }).Takes { fIdentify with payload := [0#8] } [] 0 ∧
      (atHead ready fStatus).Takes fStatus [] 0 ∧ fStatus.payload = [] ∧
      (atHead ready { fStatus with payload := [0#8] }).Takes { fStatus with payload := [0#8] } [] 0 :=
  ⟨takes (by decide +kernel), rfl, takes (by decide +kernel), takes (by decide +kernel), rfl, takes (by decide +kernel)⟩

theorem witness_StagingBankIsEditedOrLocked :
    (atHead ready fStage).Takes fStage [] 0 ∧ fStage.request.isSome = true ∧
      (atHead ready fDiscard).Takes fDiscard [] 0 ∧ fDiscard.payload = [] ∧
      ((atHead quiescing fDiscard).Takes fDiscard [] 1 ∧ (atHead quiescing fDiscard).routes.pendingCommit.isSome = true) ∧
      (atHead ready fDiscard).routes.pendingCommit.isSome = false :=
  ⟨takes (by decide +kernel), by decide +kernel, takes (by decide +kernel), rfl, ⟨takes (by decide +kernel), rfl⟩, rfl⟩

theorem witness_ReadRouteAndGetBranchReportWhatIsHeld :
    ((atHead ready fReadRoute).Takes fReadRoute [] 0 ∧ fReadRoute.payload = [0#8, Byte.ofCount (0 : SlotId).val] ∧
      (atHead ready { fReadRoute with payload := [1#8, 31#8] }).Takes { fReadRoute with payload := [1#8, 31#8] } [] 0 ∧
      ([1#8, 31#8] : List Byte) = [1#8, Byte.ofCount (31 : SlotId).val] ∧
      (atHead ready { fReadRoute with payload := [2#8, 0#8] }).Takes { fReadRoute with payload := [2#8, 0#8] } [] 0 ∧
      1 < (2#8).toNat ∧ 31 < (32#8).toNat) ∧
    (atHead ready fGetBranch).Takes fGetBranch [] 0 ∧ fGetBranch.payload = [Byte.ofCount (0 : BranchId).val] ∧
      (atHead ready { fGetBranch with payload := [4#8] }).Takes { fGetBranch with payload := [4#8] } [] 0 ∧ 3 < (4#8).toNat :=
  ⟨⟨takes (by decide +kernel), rfl, takes (by decide +kernel), rfl, takes (by decide +kernel), by decide, by decide⟩,
    takes (by decide +kernel), rfl, takes (by decide +kernel), by decide⟩

theorem witness_CommitIsTestedInOrder :
    (atHead ready fCommit).Takes fCommit [] 0 ∧ fCommit.request = some (.commit 0#16 .immediate 0#16) ∧
      (atHead ready fQuiesce).Takes fQuiesce [] 0 ∧ fQuiesce.request = some (.commit 0#16 .quiesce 60000#16) ∧
      (atHead quiescing fQuiesce).Takes fQuiesce [] 1 ∧ ready.routes.staging.validate = none :=
  ⟨takes (by decide +kernel), by decide +kernel, takes (by decide +kernel), by decide +kernel, takes (by decide +kernel),
    by decide +kernel⟩

theorem witness_QuiesceEndsByDrainOrTimeout :
    quiescing.stopped = false ∧ quiescing.routes.pendingCommit = some ⟨0, 9#8, 1152000⟩ ∧ (quiescing.entry 0).state = .held ∧
      (quiescing.entry 0).source = .ctl ∧ quiescing.table.dataInUse = 0 := by decide +kernel

/-- A request of a kind queued on B0. -/
def queuedOn (kind : Byte) : State :=
  onB0 (withEntry ready (direct kind 9#8 .queued .pending)) { idle with queue := [⟨0, 0⟩] }

/-- A retry wait of a request of a kind on B0. -/
def retrying (kind : Byte) : State :=
  onB0 (withEntry ready (direct kind 9#8 .active .inService)) { serving .retryWait .released with retryTimer := some 5, copy := none }

theorem witness_SetBranchEnablesOrDisables :
    ((atHead ready fEnable).Takes fEnable [] 0 ∧ fEnable.request.isSome = true) ∧
      ((atHead (exchanging 1#8) fDisable).Takes fDisable [] 1 ∧ fDisable.request.isSome = true ∧
        ((exchanging 1#8).engine 0).state = .exchange) ∧
      ((atHead (queuedOn 3#8) fDisable).Takes fDisable [] 1 ∧ ((queuedOn 3#8).engine 0).state = .idle) ∧
      ((atHead (retrying 2#8) fDisable).Takes fDisable [] 1 ∧ ((retrying 2#8).engine 0).state = .retryWait ∧
        ((retrying 2#8).engine 0).inService = some ⟨0, 0⟩) ∧
      ((atHead ready fDisable).Takes fDisable [] 0 ∧ (ready.engine 0).state = .idle ∧ (ready.engine 0).queue = [] ∧
        ∀ t ∈ ready.timers, ready.timerOn 0 t = false) :=
  ⟨⟨takes (by decide +kernel), by decide +kernel⟩, ⟨takes (by decide +kernel), by decide +kernel⟩,
    ⟨takes (by decide +kernel), by decide +kernel⟩, ⟨takes (by decide +kernel), by decide +kernel⟩,
    ⟨takes (by decide +kernel), by decide +kernel⟩⟩

/-- What `Placed` asks, in a form that evaluates. -/
def isPlaced (s : State) : Bool :=
  let onBranch (b : BranchId) (st : MemberState) (it : Item) : Bool :=
    (s.member it).any (fun m => m.branch == b && m.state == st)
  decide (∀ b, ∀ it ∈ (s.engine b).queue,
      ((s.entry it.entry).state = .queued ∨ (s.entry it.entry).state = .active) ∧ onBranch b .pending it = true) &&
    decide (∀ b, ((s.engine b).queue.map (·.entry)).Nodup) &&
    decide (∀ b, ∀ it ∈ (s.engine b).inService.toList, (s.entry it.entry).state = .active ∧ onBranch b .inService it = true) &&
    decide (∀ i, ((s.entry i).members.map (·.branch)).Nodup) &&
    decide (∀ i, (s.entry i).watch.isSome = true → (s.entry i).members.length ≤ 1) &&
    decide (∀ i, i ∈ s.timers.map (·.entry) ↔ (s.entry i).state = .waiting) &&
    decide (s.timers.map (·.entry)).Nodup &&
    decide (∀ i, (s.entry i).state = .waiting → (s.entry i).members.map (·.state) = [.pending]) &&
    decide (∀ i, (s.entry i).state = .held ↔ s.routes.pendingCommit.map (·.entry) = some i) &&
    decide (∀ i, ∀ src ∈ Source.all, i ∈ s.sourceQueue src ↔ (s.entry i).state = .complete ∧ (s.entry i).source = src) &&
    decide (∀ src ∈ Source.all, (s.sourceQueue src).Nodup) &&
    decide (∀ i, (s.entry i).source ≠ .ntc) &&
    decide (∀ i, s.tx.map (·.what) = some (.response i) → (s.entry i).state = .sending)

theorem mem_all (src : Source) : src ∈ Source.all := by
  have h : ∀ b, Source.branch b ∈ Source.all := by decide
  cases src with
  | branch b => exact h b
  | ctl => decide
  | ntc => decide

theorem placed {s : State} (h : isPlaced s = true) : s.Placed := by
  simp only [isPlaced, Bool.and_eq_true, decide_eq_true_eq] at h
  obtain ⟨⟨⟨⟨⟨⟨⟨⟨⟨⟨⟨⟨h1, h2⟩, h3⟩, h4⟩, h5⟩, h6⟩, h7⟩, h8⟩, h9⟩, h10⟩, h11⟩, h12⟩, h13⟩ := h
  have on {b : BranchId} {st : MemberState} {it : Item}
      (h : (s.member it).any (fun m => m.branch == b && m.state == st) = true) :
      ∃ m, s.member it = some m ∧ m.branch = b ∧ m.state = st := by
    cases hm : s.member it <;> simp_all
  exact {
    queued := fun b it hi => ⟨(h1 b it hi).1, on (h1 b it hi).2⟩
    queuedOnce := h2
    served := fun b it hi => ⟨(h3 b it (by simp [hi])).1, on (h3 b it (by simp [hi])).2⟩
    branches := h4
    watching := h5
    timer := h6
    timerOnce := h7
    waiting := fun i hi => by
      obtain ⟨m, hm, hs⟩ := List.map_eq_singleton_iff.mp (h8 i hi)
      exact ⟨m, hm, hs⟩
    held := h9
    source := fun i src => h10 i src (mem_all src)
    sourceOnce := fun src => h11 src (mem_all src)
    answered := h12
    sending := fun i f hf hw => h13 i (by simp [hf, hw]) }

/-- Work in every place: a READ on the wire of B0, a WRITE in its queue, a WATCH of it waiting, a COMMIT held, a response that
waits in CTL and one on TTXD. -/
def working : State :=
  { (onB0 ready { serving .exchange (.exchange []) with queue := [⟨1, 0⟩] }).setTimers [⟨2, 1152000⟩] with
    table :=
      { entries :=
          ((((((State.reset.table.entries.set 0 (direct 1#8 1#8 .active .inService)).set 1
            (direct 2#8 2#8 .queued .pending)).set 2 (direct 4#8 3#8 .waiting .pending)).set 3
            { Entry.free with state := .held, kind := 0x15#8, tag := 4#8 }).set 4
            { sent none with state := .complete, tag := 5#8 }).set 5 (sent none))
        dataInUse := 3, controlInUse := 3 }
    arbiter := { Arbiter.reset with ctlQueue := [4], grant := some (.ctl, 1) }
    routes := { ready.routes with pendingCommit := some ⟨3, 4#8, 1152000⟩ }
    tx := some ⟨.response 5, []⟩ }

theorem working_placed : working.Placed := placed (by decide +kernel)

theorem witness_FlushEndsQueueAndWaitingWatches :
    ((⟨0, 0⟩ : Item) ∈ ((queuedOn 3#8).engine 0).queue ∧
      (queuedOn 3#8).member ⟨0, 0⟩ = some ⟨0, 1#8, 0#8, .pending, none⟩ ∧
      ((queuedOn 3#8).engine 0).queue.countP (fun x => x.entry == 0) = 1 ∧
      (∀ x ∈ (queuedOn 3#8).timers, x.entry ≠ 0) ∧ ((queuedOn 3#8).entry 0).state = .queued) ∧
    working.Placed ∧
    (⟨2, 1152000⟩ : WatchTimer) ∈ working.timers.filter (working.timerOn 0) ∧
      (working.entry 2).members = [⟨0, 1#8, 0#8, .pending, none⟩] ∧ (working.entry 2).kind = 0x04#8 ∧
      (∀ it ∈ (working.engine 0).queue, (working.entry it.entry).posted = false ∧
        (working.entry it.entry).members.length = 1 ∧ (working.entry it.entry).source = .branch 0) ∧
      ∀ x ∈ working.timers.filter (working.timerOn 0), (working.entry x.entry).posted = false ∧
        (working.entry x.entry).source = .branch 0 :=
  ⟨by decide +kernel, working_placed, by decide +kernel⟩

theorem witness_SetArbiterAndResetAreAnswered :
    ((atHead ready fArbiter).Takes fArbiter [] 0 ∧ fArbiter.request.isSome = true) ∧
      ((atHead ready fSoft).Takes fSoft [] 0 ∧ fSoft.request = some (.reset .soft)) ∧
      (atHead ready fFull).Takes fFull [] 0 ∧ fFull.request = some (.reset .full) :=
  ⟨⟨takes (by decide +kernel), by decide +kernel⟩, ⟨takes (by decide +kernel), by decide⟩, takes (by decide +kernel), by decide⟩

theorem witness_CancelSettlesByTheStateItFinds :
    ((atHead ready fCancel).Takes fCancel [] 0 ∧ fCancel.request = some (.cancel 9#8) ∧
        ∀ j, (ready.entry j).inUse = true → (ready.entry j).tag ≠ 9#8) ∧
      ((atHead (answering (sent none)) fCancel).Takes fCancel [] 1 ∧ ((answering (sent none)).entry 0).state = .sending ∧
        ∀ k, ((answering (sent none)).entry k).inUse = true → ((answering (sent none)).entry k).tag = 9#8 → k = 0) ∧
      ((atHead waiting fCancel).Takes fCancel [] 1 ∧ (waiting.entry 0).state = .waiting ∧ (waiting.entry 0).posted = false ∧
        (waiting.entry 0).members = [⟨0, 1#8, 0#8, .pending, none⟩] ∧ (waiting.entry 0).source = .branch 0) ∧
      ((atHead (queuedOn 1#8) fCancel).Takes fCancel [] 1 ∧ ((queuedOn 1#8).entry 0).state = .queued ∧
        ((queuedOn 1#8).entry 0).members = [⟨0, 1#8, 0#8, .pending, none⟩]) ∧
      ((atHead quiescing fCancel).Takes fCancel [] 1 ∧ (quiescing.entry 0).state = .held ∧ (quiescing.entry 0).source = .ctl) :=
  ⟨⟨takes (by decide +kernel), by decide, by decide +kernel⟩, ⟨takes (by decide +kernel), by decide +kernel⟩,
    ⟨takes (by decide +kernel), by decide +kernel⟩, ⟨takes (by decide +kernel), by decide +kernel⟩,
    ⟨takes (by decide +kernel), by decide +kernel⟩⟩

/-- A group write with one member in a retry wait on B0 and one PENDING, or on the wire, on B1. -/
def groupAtWork (m : MemberState) : State :=
  (onB0 (withEntry ready
      { direct 2#8 9#8 .active .inService with
        group := true, source := .ctl, members := [⟨0, 1#8, 0#8, .inService, none⟩, ⟨1, 30#8, 0#8, m, none⟩] })
    { serving .retryWait .released with retryTimer := some 5 }).setEngine 1
    (if m = .inService then { serving .exchange (.exchange []) with inService := some ⟨0, 1⟩ }
      else { idle with queue := [⟨0, 1⟩] })

theorem witness_CancelActsMemberByMember :
    ((atHead (groupAtWork .pending) fCancel).Takes fCancel [] 1 ∧ ((groupAtWork .pending).entry 0).state = .active ∧
        ((groupAtWork .pending).entry 0).posted = false ∧ (((groupAtWork .pending).entry 0).members.map (·.branch)).Nodup ∧
        ((groupAtWork .pending).engine 0).state = .retryWait ∧ ((groupAtWork .pending).entry 0).source = .ctl ∧
        ((groupAtWork .pending).entry 0).address = some 0#16 ∧ ((groupAtWork .pending).entry 0).length = some 1 ∧
        ((groupAtWork .pending).entry 0).kind = 0x02#8 ∧ ((groupAtWork .pending).entry 0).group = true ∧
        ((groupAtWork .pending).entry 0).members.map
            (fun m => (m.branch, ({ m with state := .dropped, outcome := some .dropped } : Member).outcome)) =
          [((0 : BranchId), Status.dropped), (1, .dropped)].map (fun x => (x.1, some x.2))) ∧
      ((atHead (groupAtWork .inService) fCancel).Takes fCancel [] 1 ∧
        ((groupAtWork .inService).engine 1).state ≠ .retryWait) ∧
      ((atHead (queuedOn 3#8) fCancel).Takes fCancel [] 1 ∧ ((queuedOn 3#8).entry 0).posted = true ∧
        ((queuedOn 3#8).entry 0).source = .branch 0) ∧
      (∀ kind ∈ [1#8, 2#8, 4#8], (atHead (queuedOn kind) fCancel).Takes fCancel [] 1 ∧
        ((queuedOn kind).entry 0).posted = false ∧ ((queuedOn kind).entry 0).kind = kind ∧
        ((queuedOn kind).entry 0).group = false ∧ ((queuedOn kind).entry 0).address = some 0#16 ∧
        ((queuedOn kind).entry 0).length = some 1 ∧ ((queuedOn kind).entry 0).members.map (·.state) = [.pending]) :=
  ⟨⟨takes (by decide +kernel), by decide +kernel⟩, ⟨takes (by decide +kernel), by decide +kernel⟩,
    ⟨takes (by decide +kernel), by decide +kernel⟩, by
      simp only [List.forall_mem_cons, List.not_mem_nil, false_implies, implies_true, and_true]
      exact ⟨⟨takes (by decide +kernel), by decide +kernel⟩, ⟨takes (by decide +kernel), by decide +kernel⟩,
        takes (by decide +kernel), by decide +kernel⟩⟩

theorem witness_EngineTakesTheHeadItem :
    (queuedOn 2#8).stopped = false ∧ ((queuedOn 2#8).engine 0).state = .idle ∧ ((queuedOn 2#8).engine 0).wire = .released ∧
      ((queuedOn 2#8).engine 0).queue = ⟨0, 0⟩ :: [] ∧
      (queuedOn 2#8).member ⟨0, 0⟩ = some ⟨0, 1#8, 0#8, .pending, none⟩ := by decide +kernel

theorem witness_ExchangeEndCompletesADirectRequest :
    ∀ kind ∈ [1#8, 2#8], (exchanging kind).stopped = false ∧ ((exchanging kind).engine 0).state = .exchange ∧
      ((exchanging kind).engine 0).inService = some ⟨0, 0⟩ ∧ ((exchanging kind).engine 0).disablePending = false ∧
      ((exchanging kind).entry 0).state = .active ∧
      ((exchanging kind).entry 0).members = [⟨0, 1#8, 0#8, .inService, none⟩] ∧
      ((exchanging kind).entry 0).posted = false ∧ ((exchanging kind).entry 0).cancelRequested = false ∧
      ((exchanging kind).entry 0).group = false ∧ ((exchanging kind).entry 0).source = .branch 0 ∧
      ((exchanging kind).entry 0).address = some 0#16 ∧ ((exchanging kind).entry 0).length = some 1 ∧
      ((exchanging kind).entry 0).kind = kind := by decide +kernel

theorem witness_EndedItemSettlesItsEntryAndItsEngine :
    ((exchanging 2#8).stopped = false ∧ ((exchanging 2#8).engine 0).state = .exchange ∧
        ((exchanging 2#8).engine 0).inService = some ⟨0, 0⟩ ∧ ((exchanging 2#8).entry 0).kind = 0x02#8 ∧
        (exchanging 2#8).member ⟨0, 0⟩ = some ⟨0, 1#8, 0#8, .inService, none⟩) ∧
      ((exchanging 1#8).stopped = false ∧ ((exchanging 1#8).engine 0).state = .exchange ∧
        ((exchanging 1#8).engine 0).inService = some ⟨0, 0⟩ ∧ ((exchanging 1#8).entry 0).kind = 0x01#8 ∧
        (exchanging 1#8).member ⟨0, 0⟩ = some ⟨0, 1#8, 0#8, .inService, none⟩ ∧
        ((exchanging 1#8).entry 0).length = some [0x12#8].length) ∧
      ((groupAtWork .pending).member ⟨0, 0⟩ = some ⟨0, 1#8, 0#8, .inService, none⟩ ∧
        ((groupAtWork .pending).entry 0).state = .active ∧
        (⟨1, 30#8, 0#8, .pending, none⟩ : Member) ∈
          ((groupAtWork .pending).entry 0).members.set 0 ⟨0, 1#8, 0#8, .finished, some .ok⟩) ∧
      (∀ x ∈ ((exchanging 3#8).entry 0).members.set 0 ⟨0, 1#8, 0#8, .dropped, some .dropped⟩,
        x.state ≠ .pending ∧ x.state ≠ .inService) ∧
      ((exchanging 3#8).entry 0).posted = true ∧ ((exchanging 2#8).entry 0).posted = false ∧
      ((exchanging 2#8).engine 0).disablePending = false ∧
      ((onB0 ready { serving .exchange (.exchange []) with disablePending := true }).engine 0).disablePending = true := by
  decide +kernel

theorem witness_BusyAndCheckFailureAreRepeatedOrEnd :
    ((exchanging 2#8).stopped = false ∧ ((exchanging 2#8).engine 0).state = .exchange ∧
      ((exchanging 2#8).engine 0).inService = some ⟨0, 0⟩ ∧ ((exchanging 2#8).engine 0).copy = some idle.config ∧
      (exchanging 2#8).member ⟨0, 0⟩ = some ⟨0, 1#8, 0#8, .inService, none⟩ ∧ ((exchanging 2#8).entry 0).kind = 0x02#8 ∧
      ((exchanging 2#8).entry 0).cancelRequested = false ∧ ((exchanging 2#8).engine 0).disablePending = false ∧
      ((exchanging 2#8).engine 0).busyUsed < idle.config.busyLimit ∧
      ((exchanging 2#8).engine 0).checkUsed < idle.config.checkLimit ∧ idle.config.retryDelay ≠ 0) ∧
    ([0xFE#8].getD 0 0xFF#8 ≠ 0x5A#8 ∧ [0xFE#8].getD 0 0xFF#8 ≠ 0x33#8 ∧ [0xFE#8].getD 0 0xFF#8 ≠ 0x0F#8) ∧
    (((exchanging 1#8).entry 0).kind = 0x01#8 ∧ ((exchanging 1#8).entry 0).length = some 1 ∧
      crc8 [(1#8 <<< 3) ||| 0b001#8, 0#8, 1#8, 0x12#8] ≠ 0x00#8) ∧
    ({ idle.config with retryDelay := 0 } : BranchConfig).retryDelay = 0 ∧ idle.config.busyLimit ≤ 3 ∧
    ({ direct 2#8 9#8 .active .inService with cancelRequested := true } : Entry).cancelRequested = true ∧
    ({ serving .exchange (.exchange []) with disablePending := true } : Engine).disablePending = true := by decide +kernel

/-- A read of a WATCH is on the wire of B0 with a disable pending. -/
def disabling : State := onB0 (exchanging 4#8) { serving .exchange (.exchange []) with disablePending := true }

theorem witness_WatchReadMatchesEndsOrWaits :
    ((exchanging 4#8).stopped = false ∧ ((exchanging 4#8).entry 0).kind = 0x04#8 ∧
      ((exchanging 4#8).entry 0).state = .active ∧
      ((exchanging 4#8).entry 0).watch = some ⟨[0xFF#8], [0x10#8], 1, 2, none⟩ ∧
      ((exchanging 4#8).entry 0).length = some [0x10#8].length ∧ ((exchanging 4#8).entry 0).cancelRequested = false ∧
      (0x10#8 &&& 0xFF#8 : Byte) = 0x10#8 &&& 0xFF#8 ∧ (0x11#8 &&& 0xFF#8 : Byte) ≠ 0x10#8 &&& 0xFF#8) ∧
    ({ direct 4#8 9#8 .active .inService with cancelRequested := true } : Entry).cancelRequested = true ∧
    disabling.Placed ∧ (disabling.engine 0).disablePending = true ∧
      (disabling.entry 0).members = [⟨0, 1#8, 0#8, .inService, none⟩] :=
  ⟨by decide +kernel, rfl, placed (by decide +kernel), by decide +kernel⟩

theorem witness_WatchTimersStandByExpiryAndRequeue :
    (waiting.timers.Pairwise (fun t u => t.remaining ≤ u.remaining)) ∧ waiting.stopped = false ∧
      (∃ x ∈ waiting.timers, x.entry = 0) ∧ (waiting.entry 0).state = .waiting ∧
      (waiting.entry 0).members = ⟨0, 1#8, 0#8, .pending, none⟩ :: [] := by decide +kernel

theorem witness_HoldAndRetryTimersRunOut :
    ((exchanging 1#8).stopped = false ∧ ((exchanging 1#8).engine 0).inService = some ⟨0, 0⟩ ∧
        (exchanging 1#8).member ⟨0, 0⟩ = some ⟨0, 1#8, 0#8, .inService, none⟩ ∧ ((exchanging 1#8).engine 0).state = .exchange) ∧
      ((groupAtWork .pending).stopped = false ∧ ((groupAtWork .pending).engine 0).inService = some ⟨0, 0⟩ ∧
        ((groupAtWork .pending).engine 0).state = .retryWait) := by decide +kernel

theorem witness_SuccessfulRecoveryGoesOn :
    ((recovering .beforeTry).stopped = false ∧ ((recovering .beforeTry).engine 0).state = .recovery ∧
        ((recovering .beforeTry).engine 0).disablePending = false ∧ ((recovering .beforeTry).engine 0).wire = .recovery .beforeTry ∧
        ((recovering .beforeTry).engine 0).inService = some ⟨0, 0⟩ ∧ ((recovering .beforeTry).entry 0).cancelRequested = false ∧
        (recovering .beforeTry).member ⟨0, 0⟩ = some ⟨0, 1#8, 0#8, .inService, none⟩) ∧
      (({ direct 1#8 9#8 .active .inService with cancelRequested := true } : Entry).cancelRequested = true ∧
        ({ serving .recovery (.recovery .beforeTry) with disablePending := true } : Engine).disablePending = true) ∧
      (((recovering .afterHold).engine 0).wire = .recovery .afterHold ∧ ((recovering .afterHold).entry 0).kind = 0x01#8 ∧
        ((recovering .afterHold).entry 0).state = .active ∧
        ((recovering .afterHold).entry 0).members = [⟨0, 1#8, 0#8, .inService, none⟩]) ∧
      ∀ d, ((onB0 ready { idle with
          state := .recovery, wire := .recovery .softReset, disablePending := d }).engine 0).state = .recovery ∧
        ((onB0 ready { idle with
          state := .recovery, wire := .recovery .softReset, disablePending := d }).engine 0).inService = none := by
  decide +kernel

/-- A recovery runs on B0 with work in every place. -/
def recoveringAtWork : State :=
  onB0 working { serving .recovery (.recovery .afterHold) with queue := [⟨1, 0⟩] }

theorem witness_FailedRecoveryFaultsTheBranch :
    ((recovering .afterHold).stopped = false ∧ ((recovering .afterHold).engine 0).state = .recovery ∧
      ((recovering .afterHold).engine 0).wire = .recovery .afterHold ∧
      ∀ i, ((recovering .afterHold).entry i).posted = false) ∧
    recoveringAtWork.Placed ∧
    (recoveringAtWork.stopped = false ∧ (recoveringAtWork.engine 0).state = .recovery ∧
      (recoveringAtWork.engine 0).wire = .recovery .afterHold ∧ (recoveringAtWork.engine 0).inService = some ⟨0, 0⟩ ∧
      (⟨1, 0⟩ : Item) ∈ (recoveringAtWork.engine 0).queue ∧
      (⟨2, 1152000⟩ : WatchTimer) ∈ recoveringAtWork.timers ∧ recoveringAtWork.timerOn 0 ⟨2, 1152000⟩ = true ∧
      (recoveringAtWork.entry 2).kind = 0x04#8 ∧ (recoveringAtWork.entry 2).members = [⟨0, 1#8, 0#8, .pending, none⟩]) :=
  ⟨by decide +kernel, placed (by decide +kernel), by decide +kernel⟩

theorem witness_PeriodicRecoveryAndResetClosingMark :
    ((onB0 ready { idle with state := .faulted, recoveryTimer := some 1 }).stopped = false ∧
        ((onB0 ready { idle with state := .faulted, recoveryTimer := some 1 }).engine 0).state = .faulted ∧
        ((onB0 ready { idle with state := .faulted, recoveryTimer := some 1 }).engine 0).recoveryTimer.isSome = true) ∧
      ((onB0 ready { idle with state := .faulted, wire := .attempt }).engine 0).wire = .attempt ∧
      ((onB0 ready { Engine.reset with wire := .closingMark }).engine 0).wire = .closingMark ∧
      (∀ st ∈ [EngineState.exchange, .recovery], ∀ e d,
        let g := (onB0 ready { Engine.reset with
          wire := .closingMark, state := st, disablePending := d
          config := { BranchConfig.reset with enabled := e } }).engine 0
        g.wire = .closingMark ∧ g.state = st ∧ g.config.enabled = e ∧ g.disablePending = d) := by decide +kernel

/-- A group entry whose two members ended with two outcomes. -/
def ended (o p : Status) : Entry :=
  { Entry.free with group := true, members := [⟨0, 1#8, 0#8, .finished, some o⟩, ⟨1, 1#8, 0#8, .finished, some p⟩] }

theorem witness_GroupStatusCombinesTheOutcomes :
    (ended .busy .busy).members.map (·.outcome) = [Status.busy, .busy].map some ∧
      (¬ ((ended .busy .busy).cancelRequested = true ∨ ∃ m ∈ (ended .busy .busy).members, m.state = .dropped)) ∧
      (∀ o ∈ [Status.ok, .ok], o = .ok) ∧ (∀ x ∈ [Status.busy, .busy], x = .busy) ∧
      (¬ ∃ o, ∀ x ∈ [Status.ok, .busy], x = o) ∧
      ({ ended .ok .ok with cancelRequested := true } : Entry).cancelRequested = true :=
  ⟨by decide, by decide, by decide, by decide,
    fun ⟨o, h⟩ => absurd ((h .ok (by simp)).trans (h .busy (by simp)).symm) (by decide), rfl⟩

/-- CTL and B0 each hold one entry, and the arbiter is in a mode with a round set. -/
def twoReady (mode : ArbiterMode) (roundSet : List Source) : State :=
  ready.setArbiter
    { Arbiter.reset with
      config := { ArbiterConfig.reset with mode := mode }, decisionMode := mode, roundSet := roundSet, ctlQueue := [1],
      branchQueues := #v[[0], [], [], []] }

theorem witness_IdleLineGrantsTheFirstReadySource :
    (∀ mode, (twoReady mode []).stopped = false ∧ (twoReady mode []).tx = none ∧ (twoReady mode []).arbiter.grant = none ∧
        (twoReady mode []).arbiter.config.legal = true ∧ (twoReady mode []).sourceReady .ctl = true ∧
        (twoReady mode []).sourceReady (.branch 0) = true) ∧
      (State.reset.sourceReady .ntc = true ∧ ∀ x ∈ Source.all, State.reset.sourceReady x = true → x = .ntc) ∧
      (∀ x ∈ Source.all, ready.sourceReady x = false) ∧
      { (twoReady .linear []).arbiter with decisionMode := .round }.decisionMode ≠ (twoReady .linear []).arbiter.config.mode := by
  have h : ∀ mode ∈ [ArbiterMode.linear, .round], (twoReady mode []).stopped = false ∧ (twoReady mode []).tx = none ∧
      (twoReady mode []).arbiter.grant = none ∧ (twoReady mode []).arbiter.config.legal = true ∧
      (twoReady mode []).sourceReady .ctl = true ∧ (twoReady mode []).sourceReady (.branch 0) = true := by decide +kernel
  exact ⟨fun mode => h mode (by cases mode <;> decide), by decide +kernel⟩

/-- E0 is COMPLETE and heads a source queue. -/
def answered (src : Source) : State :=
  let s := withEntry ready { sent none with state := .complete, source := src }
  s.setArbiter (s.arbiter.join src 0)

theorem witness_FrameBeginsWithCreditAndSequence :
    State.reset.notices.queue = .ready .power 0#16 :: [] ∧
      ((answered .ctl).arbiter.ctlQueue = 0 :: [] ∧ ((answered .ctl).entry 0).state = .complete ∧
        ((answered .ctl).entry 0).status = some .ok) ∧
      (Table.get (answered (.branch 3)).arbiter.branchQueues 3 = 0 :: [] ∧
        ((answered (.branch 3)).entry 0).status = some .ok) ∧
      ((after .sourceReadyIdle State.reset).tx.bind (fun x => x.bytes[0]?) = some 0xB5#8 ∧ State.reset.tx = none ∧
        (after .sourceReadyIdle State.reset).ttxd 0 = .spacing ∧ (after .sourceReadyIdle State.reset).ttxd 1 = .marking ∧
        (after .sourceReadyIdle State.reset).tx.map (fun x => 10 * x.bytes.length) = some 120) := by decide +kernel

theorem witness_RepliesAndNoticesHaveTheirLayouts :
    (∀ b, Table.get ready.snapshot.branches b = (ready.engine b).state) ∧ ready.snapshot.commitRemaining = none ∧
      working.snapshot.commitRemaining = some 1 := by decide +kernel

theorem witness_FrameEndReleasesTheEntry :
    ((answering (sent none)).stopped = false ∧ (∀ x ∈ Source.all, (answering (sent none)).sourceReady x = false) ∧
      (answering (sent none)).tx = some ⟨.response 0, []⟩ ∧ ((answering (sent none)).entry 0).inUse = true ∧
      ((answering (sent none)).entry 0).scope = none ∧
      ((answering (sent none)).freeEntry 0).drainDue = false ∧ ((answering (sent none)).freeEntry 0).headReady = false) ∧
    ((atHead (answering (sent none)) fRead).freeEntry 0).headReady = true ∧
    ({ ready with tx := some ⟨.notice, []⟩ } : State).tx = some ⟨.notice, []⟩ := by decide +kernel

/-- A notice is on TTXD under a grant of CTL. -/
def bursting (k : Nat) : State :=
  { (twoReady .linear []).setArbiter
      { (twoReady .linear []).arbiter with
        grant := some (.ctl, k), config := { ArbiterConfig.reset with burst := 8 } } with
    tx := some ⟨.notice, []⟩ }

/-- The response of E2 is on TTXD under a grant of CTL. -/
def responding (mode : ArbiterMode) (k : Nat) (roundSet : List Source) : State :=
  let s := twoReady mode roundSet
  { s.setArbiter { s.arbiter with grant := some (.ctl, k), config := { s.arbiter.config with burst := 2 } } with
    table := { s.table with entries := Table.set s.table.entries 2 (sent none) }
    tx := some ⟨.response 2, []⟩ }

theorem witness_BurstGoesOnOrANewGrantIsMade :
    ((bursting 7).stopped = false ∧ (bursting 7).tx = some ⟨.notice, []⟩ ∧ (bursting 7).arbiter.config.legal = true ∧
      (bursting 7).arbiter.grant = some (.ctl, 7) ∧
      (bursting 7).arbiter.decisionMode = (bursting 7).arbiter.config.mode ∧
      (bursting 7).arbiter.config.order = [.ntc] ++ .ctl :: [.branch 0, .branch 1, .branch 2, .branch 3] ∧
      (bursting 7).sourceReady .ctl = true ∧ 7 < (bursting 7).arbiter.config.burst ∧
      (bursting 7).arbiter.config.mode = .linear ∧ ∀ x ∈ [Source.ntc], (bursting 7).sourceReady x = false) ∧
    (∀ mode ∈ [ArbiterMode.linear, .round], ∀ k ∈ [1, 2], ∀ set ∈ [[Source.ctl], [.ctl, .branch 0]],
      let s := responding mode k set
      s.tx = some ⟨.response 2, []⟩ ∧ (s.entry 2).scope = none ∧ s.rx.inbound = [] ∧ s.routes.pendingCommit = none ∧
        s.arbiter.config.legal = true ∧ s.arbiter.grant = some (.ctl, k) ∧ s.sourceReady .ctl = true ∧
        (k < s.arbiter.config.burst ↔ k = 1) ∧ s.sourceReady (.branch 0) = true ∧ s.sourceReady .ntc = false ∧
        s.arbiter.roundSet = set ∧ s.arbiter.config.order = [.ntc, .ctl] ++ .branch 0 :: [.branch 1, .branch 2, .branch 3] ∧
        s.arbiter.config.yieldPolicy = ArbiterConfig.reset.yieldPolicy) ∧
    (∀ x ∈ Source.all, ready.sourceReady x = false) := by decide +kernel

/-- What both statements of a reset ask. -/
def resetEnds (sc : ResetScope) (s : State) : Bool :=
  decide (s.stopped = false ∧ s.tx = some ⟨.response 0, []⟩ ∧ (s.entry 0).scope = some sc ∧ s.arbiter.config.legal = true)

theorem witness_SoftResetTakesEffect :
    resetEnds .soft (answering (sent (some .soft))) = true ∧
      resetEnds .soft { answering (sent (some .soft)) with trxd := .spacing, rx := broken.rx } = true := by decide +kernel

theorem witness_FullResetTakesEffect :
    resetEnds .full (answering (sent (some .full))) = true ∧
      resetEnds .full { answering (sent (some .full)) with trxd := .spacing, rx := broken.rx } = true := by decide +kernel

theorem witness_SupplyAndPinStopAndStartThePart :
    (held.trxd = .marking ∧ held.supply.powerCondition = false ∧ held.supply.pinCondition = true) ∧
      ({ held with trxd := .spacing } : State).trxd = .spacing ∧
      (Supply.mk true false true).pinCondition = false ∧ (Supply.mk true true true).pinCondition = true := by decide +kernel

theorem witness_Invariants_step :
    step { quiescing with pending := [.quiesceTimeout] } = .next (after .quiesceTimeout quiescing) ∧
      step { exchanging 1#8 with pending := [.holdTimeout 0] } = .next (after (.holdTimeout 0) (exchanging 1#8)) := ⟨rfl, rfl⟩

theorem witness_StepKeepsTheNoticeQueueSound :
    ({ queue := List.replicate 5 (.resync none) ++ [.credit, .overrun 1#8 255, .linkError .gap 1], lost := true,
       sequence := 255#8 } : NoticeUnit).Sound := by
  refine ⟨?_, ?_, ?_, ?_⟩ <;> decide +kernel

theorem witness_StepKeepsTheOutstandingTableSound : quiescing.TableSound ∧ (exchanging 1#8).TableSound :=
  ⟨⟨by decide +kernel, by decide +kernel, by decide +kernel, by decide +kernel⟩,
    ⟨by decide +kernel, by decide +kernel, by decide +kernel, by decide +kernel⟩⟩

theorem witness_StepKeepsTheActiveBankValid : quiescing.routes.Sound := ⟨by decide +kernel, fun _ => by decide +kernel⟩

theorem witness_StepKeepsTheReceiverSound :
    (receiving .check ⟨some 2, [0x11#8, 5#8], [7#8]⟩).ReceiverSound ∧ broken.ReceiverSound ∧
      (ready.setRx { ready.rx with breakEnding := true, waiting := true }).ReceiverSound := by
  refine ⟨⟨⟨?_, ?_, ?_, fun _ => ⟨rfl, 2, [0x11#8, 5#8], [7#8], rfl, by decide, by decide, rfl, by decide⟩, ?_, ?_⟩, ?_, ?_⟩,
    ⟨⟨?_, ?_, ?_, ?_, ?_, ?_⟩, ?_, ?_⟩, ⟨⟨?_, ?_, ?_, ?_, ?_, ?_⟩, ?_, ?_⟩⟩ <;> first | decide | exact nofun

theorem witness_StepKeepsTheEnginesSound : (exchanging 1#8).EnginesSound := by
  have h : ∀ b, ((exchanging 1#8).engine b = serving .exchange (.exchange [])) ∨ (exchanging 1#8).engine b = idle ∨
      (exchanging 1#8).engine b = Engine.reset := by decide +kernel
  constructor
  · intro b
    rcases h b with h | h | h <;> rw [h] <;> constructor <;> decide
  · intro _ b
    rcases h b with h | h | h <;> rw [h] <;> constructor <;> simp [serving, idle, Engine.reset]

theorem witness_StepKeepsArbiterAndTimersSound : (bursting 7).ArbiterSound ∧ (bursting 7).TimersSorted ∧ waiting.TimersSorted :=
  ⟨⟨by decide +kernel, fun _ _ => rfl⟩, .nil, by
    refine List.Pairwise.cons (fun _ h => ?_) .nil
    cases h⟩

theorem witness_StepKeepsTheWorkPlaced :
    working.routes.Sound ∧ working.Placed ∧
      step { working with pending := [.quiesceTimeout] } = .next (after .quiesceTimeout working) :=
  ⟨⟨by decide +kernel, fun _ => by decide +kernel⟩, working_placed, rfl⟩

end Sys2Proof.Tests
end

section
/-! PROOFS. The route table (Section 1): what validity of a bank gives for its slots, which slot a lookup finds, and how the
lookup decides. -/

namespace Sys2Proof.Machine

/-! ### Validity -/

theorem Bank.valid_iff (bank : Bank) : bank.valid = true ↔ ∀ i : SlotId, bank.slotFailure i = none := by
  simp [Bank.valid, Bank.validate]

theorem Route.holds_iff (r : Route) (a : Nat) : r.holds a = true ↔ r.base.toNat ≤ a ∧ a ≤ r.limit.toNat := by
  simp [Route.holds]

theorem Route.overlaps_of_holds {r q : Route} {a : Nat} (hr : r.holds a = true) (hq : q.holds a = true) :
    r.overlaps q = true := by
  rw [Route.holds_iff] at hr hq
  simp only [Route.overlaps, decide_eq_true_eq]
  omega

theorem Bank.overlapping_eq_none_iff (bank : Bank) (i : SlotId) :
    bank.overlapping i = none ↔
      ∀ j < i, (Table.get bank j).kind ≠ .unused → (Table.get bank j).overlaps (Table.get bank i) = false := by
  simp [Bank.overlapping]

/-- A test that reports a failure is passed exactly when its condition does not hold and the tests after it are passed. -/
theorem ite_some_eq_none_iff {α : Type} {c : Prop} [Decidable c] {x : α} {y : Option α} :
    (if c then some x else y) = none ↔ ¬ c ∧ y = none := by
  by_cases h : c <;> simp [h]

/-- The conditions of R9 on a slot that is not UNUSED. -/
theorem Bank.slotFailure_eq_none_iff (bank : Bank) (i : SlotId) (h : (Table.get bank i).kind ≠ .unused) :
    bank.slotFailure i = none ↔
      (Table.get bank i).base.toNat ≤ (Table.get bank i).limit.toNat ∧
      (Table.get bank i).limit.toNat - (Table.get bank i).base.toNat ≤ 255 ∧
      bank.overlapping i = none ∧ (Table.get bank i).membersValid = true ∧
      (Table.get bank i).registersValid = true ∧ (Table.get bank i).rightsValid = true := by
  unfold Bank.slotFailure
  cases bank.overlapping i with
  | none =>
    simp only [h, if_false, ite_some_eq_none_iff, not_lt, Bool.not_eq_true', Bool.not_eq_false, true_and, and_true]
  | some j => simp [h, ite_some_eq_none_iff]

/-- No two windows of a valid bank share an address. -/
theorem Bank.slot_unique {bank : Bank} (hv : bank.valid = true) {a : Nat} {i j : SlotId}
    (hi : (Table.get bank i).kind ≠ .unused) (hj : (Table.get bank j).kind ≠ .unused)
    (ai : (Table.get bank i).holds a = true) (aj : (Table.get bank j).holds a = true) : i = j := by
  have disjoint : ∀ k l : SlotId, k < l → (Table.get bank k).kind ≠ .unused → (Table.get bank l).kind ≠ .unused →
      (Table.get bank k).holds a = true → (Table.get bank l).holds a = true → False := by
    intro k l hkl hk hl ak al
    obtain ⟨-, -, overlapFree, -⟩ := (bank.slotFailure_eq_none_iff l hl).mp (bank.valid_iff.mp hv l)
    have apart := (bank.overlapping_eq_none_iff l).mp overlapFree k hkl hk
    simp [Route.overlaps_of_holds ak al] at apart
  rcases lt_trichotomy i j with hij | hij | hij
  · exact (disjoint i j hij hi hj ai aj).elim
  · exact hij
  · exact (disjoint j i hij hj hi aj ai).elim

/-! ### Finding the slot -/

theorem Bank.find_eq_none_iff (bank : Bank) (a : Half) :
    bank.find a = none ↔
      ∀ j : SlotId, (Table.get bank j).kind = .unused ∨ (Table.get bank j).holds a.toNat = false := by
  simp [Bank.find, or_iff_not_imp_left]

/-- The slot that is found stands in the bank, is not UNUSED and holds the address. -/
theorem Bank.find_some {bank : Bank} {a : Half} {r : Route} (h : bank.find a = some r) :
    ∃ j : SlotId, Table.get bank j = r ∧ r.kind ≠ .unused ∧ r.holds a.toNat = true := by
  obtain ⟨j, -, hj⟩ := List.mem_map.mp (List.mem_of_find?_eq_some h)
  have hr := List.find?_some h
  simp only [Bool.and_eq_true, bne_iff_ne] at hr
  exact ⟨j, hj, hr⟩

theorem Bank.find_eq_some {bank : Bank} (hv : bank.valid = true) {a : Half} {j : SlotId}
    (hj : (Table.get bank j).kind ≠ .unused) (aj : (Table.get bank j).holds a.toNat = true) :
    bank.find a = some (Table.get bank j) := by
  cases hf : bank.find a with
  | none =>
    rcases (bank.find_eq_none_iff a).mp hf j with h | h
    · exact absurd h hj
    · simp [aj] at h
  | some r =>
    obtain ⟨i, rfl, hi, ai⟩ := Bank.find_some hf
    rw [Bank.slot_unique hv hi hj ai aj]

/-! ### Rights and the decision -/

/-- The right of R2 that a data request of a kind needs. -/
def Route.right (r : Route) (kind : Kind) : Bool :=
  if kind = .read then r.rights.read else if kind = .watch then r.rights.watch else r.rights.write

/-- In a slot whose rights are valid, a GROUP has READ and WATCH off, so that the right alone decides. -/
theorem Route.allows_eq_right {r : Route} (hr : r.rightsValid = true) {kind : Kind}
    (hk : kind = .read ∨ kind = .write ∨ kind = .writePosted ∨ kind = .watch) : r.allows kind = r.right kind := by
  have group : r.kind = .group → r.rights.read = false ∧ r.rights.watch = false := by
    intro hg
    simpa [Route.rightsValid, hg] using hr
  rcases hk with rfl | rfl | rfl | rfl
  · by_cases hg : r.kind = .group
    · simp [Route.allows, Route.right, group hg]
    · simp [Route.allows, Route.right, hg]
  · rfl
  · rfl
  · by_cases hg : r.kind = .group
    · simp [Route.allows, Route.right, group hg]
    · simp [Route.allows, Route.right, hg]

theorem Bank.rightsValid_of_valid {bank : Bank} (hv : bank.valid = true) {j : SlotId}
    (hj : (Table.get bank j).kind ≠ .unused) : (Table.get bank j).rightsValid = true := by
  obtain ⟨-, -, -, -, -, rights⟩ := (bank.slotFailure_eq_none_iff j hj).mp (bank.valid_iff.mp hv j)
  exact rights

theorem Bank.lookup_of_find {bank : Bank} {kind : Kind} {a : Half} {r : Route} (n : Nat) (hf : bank.find a = some r) :
    bank.lookup kind a n =
      if r.kind = .deny then .error .accessDenied
      else if r.holds (a.toNat + n - 1) = false then .error .range
      else if r.allows kind = false then .error .accessDenied
      else .ok r := by
  simp [Bank.lookup, hf]

/-- Of the last address only the limit of the window is in question, since the first lies at or above its base. -/
theorem Route.holds_last_eq_false_iff {r : Route} {a n : Nat} (hb : r.base.toNat ≤ a) (hn : 1 ≤ n) :
    r.holds (a + n - 1) = false ↔ r.limit.toNat < a + n - 1 := by
  rw [← Bool.not_eq_true, Route.holds_iff]
  omega

/-- Settles O14: the slot that holds the first address is the one found, as no two windows of a valid bank meet. -/
theorem lookupDecidesInOrder : Obligations.LookupDecidesInOrder := by
  intro bank kind a n hv hn hk
  constructor
  · intro j r right hj hb hl
    have found : bank.find a = some r := Bank.find_eq_some hv hj ((Route.holds_iff _ _).mpr ⟨hb, hl⟩)
    have allowed : r.allows kind = right := Route.allows_eq_right (Bank.rightsValid_of_valid hv hj) hk
    simp only [Bank.lookup_of_find n found, Route.holds_last_eq_false_iff hb hn, allowed]
  · intro h
    have missing : bank.find a = none := by
      refine (bank.find_eq_none_iff a).mpr fun j => (h j).imp_right fun outside => ?_
      rw [← Bool.not_eq_true, Route.holds_iff]
      omega
    simp [Bank.lookup, missing]

end Sys2Proof.Machine
end

section
/-! PROOFS. READ_ROUTE and GET_BRANCH. First what taking a head does when its frame is answered at once on CTL, for every
request that is; then the decoding of the two kinds. -/

namespace Sys2Proof.Machine

/-! ### Kind codes -/

theorem Kind.ofCode_eq_some_iff (c : Byte) (k : Kind) : Kind.ofCode c = some k ↔ c = k.code := by
  constructor
  · intro h
    have found := List.find?_some (p := fun k : Kind => k.code == c) h
    exact (beq_iff_eq.mp found).symm
  · rintro rfl
    cases k <;> rfl

theorem Frame.isKind_of_code {fr : Frame} {k : Kind} (h : fr.kind = k.code) : Frame.isKind k fr = true := by
  simp [Frame.isKind, (Kind.ofCode_eq_some_iff _ _).mpr h]

theorem State.allocate_eq_enter (s : State) (i : EntryId) (fr : Frame) :
    s.allocate i fr = s.enter i (fr.record s.routes.generation) := by
  have posted : (Kind.ofCode fr.kind == some .writePosted) = (fr.kind == 0x03#8) := by
    rw [Bool.eq_iff_iff, beq_iff_eq, beq_iff_eq]
    exact Kind.ofCode_eq_some_iff fr.kind .writePosted
  simp only [State.allocate, State.enter, Frame.record, posted]

/-! ### An entry answered at once -/

@[simp] theorem OutstandingTable.raise_entries (t : OutstandingTable) (cls : RequestClass) :
    (t.raise cls).entries = t.entries := by
  cases cls <;> rfl

@[simp] theorem State.enter_entry_self (s : State) (i : EntryId) (e : Entry) : (s.enter i e).entry i = e := by
  simp [State.enter, State.entry]

/-- Of two records given to an entry one after the other, the second counts, when they are of one class. -/
theorem State.enter_setEntry (s : State) (i : EntryId) (e f : Entry) (h : f.cls = e.cls) :
    (s.enter i e).setEntry i f = s.enter i f := by
  unfold State.enter State.setEntry
  rw [h]
  cases e.cls <;> simp [OutstandingTable.raise, Table.set]

/-- A frame allocated to an entry and answered at once is the record of R26 in it, COMPLETE on CTL (R31, R62). -/
theorem State.allocate_answer (s : State) (i : EntryId) (fr : Frame) (status : Status) (reply : Reply) :
    (s.allocate i fr).answer i status reply = s.answered fr i status reply := by
  simp only [State.allocate_eq_enter, State.answer, State.completeEntry, State.enter_entry_self]
  exact congrArg (State.joinCtl · i) (s.enter_setEntry i (fr.record s.routes.generation) _ rfl)

/-- A malformed frame of any kind but WRITE_POSTED is answered BAD_REQUEST, and its response carries nothing more (R54). -/
theorem State.allocate_refuse_badRequest (s : State) (i : EntryId) (fr : Frame) (h : fr.kind ≠ 0x03#8) :
    (s.allocate i fr).refuse i .badRequest = s.answered fr i .badRequest .nothing := by
  have notPosted : ((s.allocate i fr).entry i).posted = false := by
    simp [State.allocate_eq_enter, Frame.record, h]
  simp only [State.refuse, notPosted, Entry.refusalReply]
  exact s.allocate_answer i fr .badRequest .nothing

/-! ### Taking a head that is answered at once -/

section
variable {s u : State} {fr : Frame} {rest : List Frame} {i : EntryId}

theorem State.Takes.take (h : s.Takes fr rest i) {names : Frame → Bool} (hn : names fr = true) :
    s.take names = s.takeHead fr rest := by
  simp [State.take, h.head, hn, h.ready]

/-- The checks on the tag and on the FREE entries go by the outstanding table alone. -/
theorem State.Takes.fresh_free_of_table (h : s.Takes fr rest i) (hu : u.table = s.table) :
    u.tagInUse fr.tag = false ∧ u.lowestFree = some i := by
  constructor
  · simpa [State.tagInUse, State.entry, hu] using h.fresh
  · simpa [State.lowestFree, State.entry, hu] using h.free

theorem State.Takes.runChecks_request (h : s.Takes fr rest i) (hu : u.table = s.table) {r : Request}
    (hr : fr.request = some r) : u.runChecks fr = (u.allocate i fr).execute i r := by
  obtain ⟨fresh, free⟩ := h.fresh_free_of_table hu
  simp [State.runChecks, fresh, free, hr]

theorem State.Takes.runChecks_malformed (h : s.Takes fr rest i) (hu : u.table = s.table) (hr : fr.request = none) :
    u.runChecks fr = (u.allocate i fr).refuse i .badRequest := by
  obtain ⟨fresh, free⟩ := h.fresh_free_of_table hu
  simp [State.runChecks, fresh, free, hr]

/-- Taking a head runs the checks beside the CREDIT that it may cause (R44, R160). -/
theorem State.takeHead_didTaking (s : State) (fr : Frame) (rest : List Frame) :
    s.didTaking fr rest (·.runChecks fr) (s.takeHead fr rest) := by
  unfold State.didTaking State.taken
  by_cases due : (s.headGone fr rest).rx.creditDue = true
  · rw [if_pos due]
    by_cases first : Config.creditFirst s.freeCount = true
    · exact .inl ((if_pos due).trans (if_pos first))
    · exact .inr ⟨due, (if_pos due).trans (if_neg first)⟩
  · rw [if_neg due]
    exact .inl (if_neg due)

/-- Where the checks answer at once and hand no notice, the place of the CREDIT among them does not show (R160). -/
theorem State.takeHead_answered {status : Status} {reply : Reply}
    (hchecks : ∀ u : State, u.table = s.table → u.routes = s.routes → u.engines = s.engines →
      u.runChecks fr = u.answered fr i status reply) :
    s.takeHead fr rest = (s.taken fr rest).answered fr i status reply := by
  have unchanged : (s.taken fr rest).table = s.table ∧ (s.taken fr rest).routes = s.routes ∧
      (s.taken fr rest).engines = s.engines := by
    unfold State.taken
    split <;> exact ⟨rfl, rfl, rfl⟩
  rcases s.takeHead_didTaking fr rest with first | ⟨due, last⟩
  · obtain ⟨table, routes, engines⟩ := unchanged
    rw [first]
    exact hchecks _ table routes engines
  · have checked := congrArg (State.hand · .credit)
      (hchecks { s.headGone fr rest with freeCount := s.freeCount + 1 } rfl rfl rfl)
    rw [State.taken, if_pos due]
    exact last.trans checked

/-- A well-formed request that its owner answers at once. -/
theorem State.Takes.take_answered {k : Kind} {r : Request} {status : Status} {reply : Reply}
    (h : s.Takes fr rest i) (hk : fr.kind = k.code) (hr : fr.request = some r)
    (hexec : ∀ u : State, u.routes = s.routes → u.engines = s.engines →
      (u.allocate i fr).execute i r = u.answered fr i status reply) :
    s.take (Frame.isKind k) = (s.taken fr rest).answered fr i status reply := by
  rw [h.take (Frame.isKind_of_code hk)]
  refine State.takeHead_answered fun u table routes engines => ?_
  rw [h.runChecks_request table hr]
  exact hexec u routes engines

/-- A malformed request of any kind but WRITE_POSTED. -/
theorem State.Takes.take_malformed {k : Kind} (h : s.Takes fr rest i) (hk : fr.kind = k.code)
    (hw : k ≠ .writePosted) (hr : fr.request = none) :
    s.take (Frame.isKind k) = (s.taken fr rest).answered fr i .badRequest .nothing := by
  have notPosted : fr.kind ≠ Kind.writePosted.code := by
    rw [Ne, ← Kind.ofCode_eq_some_iff, (Kind.ofCode_eq_some_iff _ _).mpr hk]
    exact fun same => hw (Option.some.inj same)
  rw [h.take (Frame.isKind_of_code hk)]
  refine State.takeHead_answered fun u table _ _ => ?_
  rw [h.runChecks_malformed table hr]
  exact u.allocate_refuse_badRequest i fr notPosted

end

/-! ### What the owners answer -/

/-- The bank that a selector names. -/
def RouteUnit.bank (r : RouteUnit) : BankSelector → Bank
  | .active => r.active
  | .staging => r.staging

theorem State.allocate_readSlot (s : State) (i : EntryId) (fr : Frame) (bank : BankSelector) (slot : SlotId) :
    (s.allocate i fr).readSlot i bank slot =
      s.answered fr i .ok (.readRoute bank slot (Table.get (s.routes.bank bank) slot) s.routes.generation) := by
  cases bank <;> exact s.allocate_answer i fr _ _

theorem State.allocate_getBranch (s : State) (i : EntryId) (fr : Frame) (b : BranchId) :
    (s.allocate i fr).getBranch i b =
      s.answered fr i .ok
        (.getBranch b (s.engine b).config (s.engine b).state (s.engine b).disablePending
          (s.engine b).queue.length (s.engine b).lastFault) := s.allocate_answer i fr _ _

/-! ### Decoding -/

theorem Byte.ofCount_toNat {n : Nat} (h : n < 256) : (Byte.ofCount n).toNat = n := Nat.mod_eq_of_lt h

theorem slotOfCode_ofCount (slot : SlotId) : slotOfCode (Byte.ofCount slot.val) = some slot := by
  have value := Byte.ofCount_toNat (n := slot.val) (by omega)
  simp [slotOfCode, value]

theorem branchOfCode_ofCount (b : BranchId) : branchOfCode (Byte.ofCount b.val) = some b := by
  have value := Byte.ofCount_toNat (n := b.val) (by omega)
  simp [branchOfCode, value]

theorem slotOfCode_eq_none {c : Byte} (h : 31 < c.toNat) : slotOfCode c = none := dif_neg (by omega)

theorem branchOfCode_eq_none {c : Byte} (h : 3 < c.toNat) : branchOfCode c = none := dif_neg (by omega)

theorem BankSelector.ofCode_code (bank : BankSelector) : BankSelector.ofCode bank.code = some bank := by
  cases bank <;> rfl

theorem BankSelector.ofCode_eq_none {c : Byte} (h : 1 < c.toNat) : BankSelector.ofCode c = none := by
  have outside : ∀ k : BankSelector, k.code ≠ c := by
    rintro k rfl
    cases k <;> exact absurd h (by decide)
  simp [BankSelector.ofCode, outside]

theorem Frame.request_readRoute {fr : Frame} {bank slot : Byte} (hk : fr.kind = Kind.readRoute.code)
    (hp : fr.payload = [bank, slot]) :
    fr.request = (BankSelector.ofCode bank).bind fun bk => (slotOfCode slot).map (Request.readRoute bk) := by
  simp only [Frame.request, (Kind.ofCode_eq_some_iff _ _).mpr hk, hp]
  cases BankSelector.ofCode bank <;> cases slotOfCode slot <;> rfl

theorem Frame.request_getBranch {fr : Frame} {b : Byte} (hk : fr.kind = Kind.getBranch.code) (hp : fr.payload = [b]) :
    fr.request = (branchOfCode b).map Request.getBranch := by
  simp only [Frame.request, (Kind.ofCode_eq_some_iff _ _).mpr hk, hp]
  cases branchOfCode b <;> rfl

/-! ### READ_ROUTE and GET_BRANCH -/

section
variable {s : State} {fr : Frame} {rest : List Frame} {i : EntryId}

theorem exec_readRoute_held (h : s.Takes fr rest i) (hk : fr.kind = Kind.readRoute.code) (bank : BankSelector)
    (slot : SlotId) (hp : fr.payload = [bank.code, Byte.ofCount slot.val]) :
    exec .readRoute s =
      .next ((s.taken fr rest).answered fr i .ok
        (.readRoute bank slot (Table.get (s.routes.bank bank) slot) s.routes.generation)) := by
  have request : fr.request = some (.readRoute bank slot) := by
    rw [Frame.request_readRoute hk hp, BankSelector.ofCode_code, slotOfCode_ofCount]
    rfl
  refine congrArg Host.Outcome.next (h.take_answered hk request fun u routes _ => ?_)
  rw [← routes]
  exact u.allocate_readSlot i fr bank slot

theorem exec_readRoute_outOfRange (h : s.Takes fr rest i) (hk : fr.kind = Kind.readRoute.code) {bank slot : Byte}
    (hp : fr.payload = [bank, slot]) (out : 1 < bank.toNat ∨ 31 < slot.toNat) :
    exec .readRoute s = .next ((s.taken fr rest).answered fr i .badRequest .nothing) := by
  have malformed : fr.request = none := by
    rw [Frame.request_readRoute hk hp]
    rcases out with hb | hs
    · simp [BankSelector.ofCode_eq_none hb]
    · simp [slotOfCode_eq_none hs]
  exact congrArg Host.Outcome.next (h.take_malformed hk (by decide) malformed)

theorem exec_getBranch_held (h : s.Takes fr rest i) (hk : fr.kind = Kind.getBranch.code) (b : BranchId)
    (hp : fr.payload = [Byte.ofCount b.val]) :
    exec .getBranch s =
      .next ((s.taken fr rest).answered fr i .ok
        (.getBranch b (s.engine b).config (s.engine b).state (s.engine b).disablePending
          (s.engine b).queue.length (s.engine b).lastFault)) := by
  have request : fr.request = some (.getBranch b) := by
    rw [Frame.request_getBranch hk hp, branchOfCode_ofCount]
    rfl
  refine congrArg Host.Outcome.next (h.take_answered hk request fun u _ engines => ?_)
  have engine : u.engine b = s.engine b := by rw [State.engine, State.engine, engines]
  rw [← engine]
  exact u.allocate_getBranch i fr b

theorem exec_getBranch_outOfRange (h : s.Takes fr rest i) (hk : fr.kind = Kind.getBranch.code) {b : Byte}
    (hp : fr.payload = [b]) (out : 3 < b.toNat) :
    exec .getBranch s = .next ((s.taken fr rest).answered fr i .badRequest .nothing) := by
  have malformed : fr.request = none := by rw [Frame.request_getBranch hk hp, branchOfCode_eq_none out]; rfl
  exact congrArg Host.Outcome.next (h.take_malformed hk (by decide) malformed)

end

/-- Settles O26: each answer is a case of the rule for a head that is answered at once, by the decoding of its payload. -/
theorem readRouteAndGetBranchReportWhatIsHeld : Obligations.ReadRouteAndGetBranchReportWhatIsHeld := by
  constructor
  · intro s fr rest i h hk
    exact ⟨exec_readRoute_held h hk .active, exec_readRoute_held h hk .staging,
      fun _ _ => exec_readRoute_outOfRange h hk⟩
  · intro s fr rest i h hk
    exact ⟨exec_getBranch_held h hk, fun _ => exec_getBranch_outOfRange h hk⟩

end Sys2Proof.Machine
end

section
/-! PROOFS. The status of a group: what the combination of a list of outcomes is, and what the members of an entry give it. -/

namespace Sys2Proof.Machine

theorem combinedStatus_cons (x : Status) (rest : List Status) :
    combinedStatus (x :: rest) = if ∀ y ∈ rest, y = x then x else .partialResult := by
  simp [combinedStatus]

theorem combinedStatus_of_common {outcomes : List Status} {o : Status} (nonempty : outcomes ≠ [])
    (common : ∀ x ∈ outcomes, x = o) : combinedStatus outcomes = o := by
  cases outcomes with
  | nil => contradiction
  | cons x rest =>
    obtain ⟨rfl, same⟩ := List.forall_mem_cons.mp common
    rw [combinedStatus_cons, if_pos same]

theorem combinedStatus_of_not_common {outcomes : List Status} (mixed : ¬ ∃ o, ∀ x ∈ outcomes, x = o) :
    combinedStatus outcomes = .partialResult := by
  cases outcomes with
  | nil => exact absurd ⟨.ok, by simp⟩ mixed
  | cons x rest =>
    have differs : ¬ ∀ y ∈ rest, y = x := fun same => mixed ⟨x, List.forall_mem_cons.mpr ⟨rfl, same⟩⟩
    rw [combinedStatus_cons, if_neg differs]

theorem Entry.outcomes_map_snd {e : Entry} {outcomes : List Status}
    (h : e.members.map (·.outcome) = outcomes.map some) : e.outcomes.map (·.2) = outcomes :=
  calc e.outcomes.map (·.2)
    _ = (e.members.map (·.outcome)).map (·.getD .ok) := by simp [Entry.outcomes]
    _ = outcomes := by simp [h]

/-- The first test of R115: a CANCEL marked the entry or dropped a member of it. -/
theorem Entry.decidedStatus_of_ended {e : Entry}
    (h : e.cancelRequested = true ∨ ∃ m ∈ e.members, m.state = .dropped) : e.decidedStatus = .cancelled := by
  simp [Entry.decidedStatus, h]

theorem Entry.decidedStatus_of_not_ended {e : Entry} {outcomes : List Status}
    (hc : ¬ (e.cancelRequested = true ∨ ∃ m ∈ e.members, m.state = .dropped))
    (h : e.members.map (·.outcome) = outcomes.map some) : e.decidedStatus = combinedStatus outcomes := by
  simp [Entry.decidedStatus, hc, Entry.outcomes_map_snd h]

/-- Settles O44: a CANCEL decides before the outcomes, which combine to the one they share or to PARTIAL. -/
theorem groupStatusCombinesTheOutcomes : Obligations.GroupStatusCombinesTheOutcomes := by
  intro e outcomes nonempty houtcomes ended
  have combined (h : ¬ ended) : e.decidedStatus = combinedStatus outcomes := Entry.decidedStatus_of_not_ended h houtcomes
  refine ⟨Entry.decidedStatus_of_ended, fun h all_ok => ?_, fun h o common => ?_, fun h mixed => ?_⟩
  · exact (combined h).trans (combinedStatus_of_common nonempty all_ok)
  · exact (combined h).trans (combinedStatus_of_common nonempty common)
  · exact (combined h).trans (combinedStatus_of_not_common mixed)

end Sys2Proof.Machine
end

section
/-! PROOFS. The commands as events of the blocks: every command is an event of the receiver, of one engine, of admission, of the
arbiter or of the supply, and what each group leaves alone is said once for all of its commands. -/

namespace Sys2Proof.Machine

/-! ### Events -/

/-- What an event of TRXD leaves. -/
inductive State.LinkEvent (s : State) : State → Prop
  | goodCharacter (v : Byte) : s.LinkEvent (s.goodCharacter v)
  | badCharacter : s.LinkEvent s.badCharacter
  | expireGap : s.LinkEvent s.expireGap
  | enterBreak : s.LinkEvent s.enterBreak
  | riseToMarking (breakEnds : Bool) : s.LinkEvent (s.riseToMarking breakEnds)
  | fall (falseStart : Bool) : s.LinkEvent (s.fall falseStart)

/-- What one of the eight happenings of an engine leaves. -/
inductive State.EngineEvent (s : State) (b : BranchId) : State → Prop
  | takeItem (bck bda : Bool) : s.EngineEvent b (s.takeItem b bck bda)
  | endExchange (answer : TargetAnswer) (bck bda : Bool) : s.EngineEvent b (s.endExchange b answer bck bda)
  | timeOutHold : s.EngineEvent b (s.timeOutHold b)
  | expireRetry (bck bda : Bool) : s.EngineEvent b (s.expireRetry b bck bda)
  | endRecovery (bck bda : Bool) : s.EngineEvent b (s.endRecovery b bck bda)
  | expireRecovery : s.EngineEvent b (s.expireRecovery b)
  | endAttempt (bck bda : Bool) : s.EngineEvent b (s.endAttempt b bck bda)
  | endClosingMark : s.EngineEvent b (s.endClosingMark b)

/-- What a beginning or an end of a supply condition leaves. -/
inductive State.SupplyEvent (s : State) : Instr → State → Prop
  | failPower : s.SupplyEvent .powerFail s.failPower
  | stabilizePower (straps : RateCode) : s.SupplyEvent (.powerStable straps) (s.stabilizePower straps)
  | assertPin : s.SupplyEvent .rstnAssert s.assertPin
  | releasePin (straps : RateCode) : s.SupplyEvent (.rstnRelease straps) (s.releasePin straps)

/-- The frames that a command takes from the head of the inbound queue (R44). -/
def framesTaken : Instr → Option (Frame → Bool)
  | .read => some (Frame.isKind .read)
  | .write => some (Frame.isKind .write)
  | .writePosted => some (Frame.isKind .writePosted)
  | .watch => some (Frame.isKind .watch)
  | .cancel => some (Frame.isKind .cancel)
  | .identify => some (Frame.isKind .identify)
  | .getStatus => some (Frame.isKind .getStatus)
  | .stageRoute => some (Frame.isKind .stageRoute)
  | .readRoute => some (Frame.isKind .readRoute)
  | .commitImmediate => some (Frame.isKindExcept .commit 2 CommitMode.quiesce.code)
  | .commitQuiesce => some (Frame.isKindExcept .commit 2 CommitMode.immediate.code)
  | .discard => some (Frame.isKind .discard)
  | .setBranchEnable => some (Frame.isKindExcept .setBranch 1 (yesNo false))
  | .setBranchDisable => some (Frame.isKindExcept .setBranch 1 (yesNo true))
  | .getBranch => some (Frame.isKind .getBranch)
  | .setArbiter => some (Frame.isKind .setArbiter)
  | .resetSoft => some (Frame.isKindExcept .reset 0 ResetScope.full.code)
  | .resetFull => some (Frame.isKindExcept .reset 0 ResetScope.soft.code)
  | .unknownKind => some (fun fr => (Kind.ofCode fr.kind).isNone)
  | _ => none

/-- What a command leaves. -/
inductive State.Event (s : State) : Instr → State → Prop
  | link {c : Instr} {t : State} (h : s.LinkEvent t) : s.Event c t
  | engine {c : Instr} (b : BranchId) {t : State} (h : s.EngineEvent b t) : s.Event c t
  | expireWatch (i : EntryId) : s.Event (.watchTimerExpiry i) (s.expireWatch i)
  | take {c : Instr} (names : Frame → Bool) (h : framesTaken c = some names) : s.Event c (s.take names)
  | drain : s.Event .quiesceDrain s.drain
  | expireQuiesce : s.Event .quiesceTimeout s.expireQuiesce
  | endFrame (straps : RateCode) : s.Event (.frameEnd straps) (s.endFrame straps)
  | grantIdle : s.Event .sourceReadyIdle s.grantIdle
  | supply {c : Instr} {t : State} (h : s.SupplyEvent c t) : s.Event c t

/-- Every command is an event. -/
theorem exec_event (c : Instr) (s : State) : ∃ t, exec c s = .next t ∧ s.Event c t := by
  cases c with
  | receiveCharacter v => exact ⟨_, rfl, .link (.goodCharacter v)⟩
  | frameReceived v => exact ⟨_, rfl, .link (.goodCharacter v)⟩
  | characterError => exact ⟨_, rfl, .link .badCharacter⟩
  | gapTimeout => exact ⟨_, rfl, .link .expireGap⟩
  | breakStart => exact ⟨_, rfl, .link .enterBreak⟩
  | breakEnd => exact ⟨_, rfl, .link (.riseToMarking true)⟩
  | startOfCharacter f => exact ⟨_, rfl, .link (.fall f)⟩
  | lineReturnsToMarking => exact ⟨_, rfl, .link (.riseToMarking false)⟩
  | engineTakeItem b p q => exact ⟨_, rfl, .engine b (.takeItem p q)⟩
  | exchangeEnd b a p q => exact ⟨_, rfl, .engine b (.endExchange a p q)⟩
  | holdTimeout b => exact ⟨_, rfl, .engine b .timeOutHold⟩
  | retryTimerExpiry b p q => exact ⟨_, rfl, .engine b (.expireRetry p q)⟩
  | recoveryEnd b p q => exact ⟨_, rfl, .engine b (.endRecovery p q)⟩
  | recoveryTimerExpiry b => exact ⟨_, rfl, .engine b .expireRecovery⟩
  | periodicRecoveryEnd b p q => exact ⟨_, rfl, .engine b (.endAttempt p q)⟩
  | resetClosingMarkEnd b => exact ⟨_, rfl, .engine b .endClosingMark⟩
  | watchTimerExpiry i => exact ⟨_, rfl, .expireWatch i⟩
  | quiesceDrain => exact ⟨_, rfl, .drain⟩
  | quiesceTimeout => exact ⟨_, rfl, .expireQuiesce⟩
  | frameEnd straps => exact ⟨_, rfl, .endFrame straps⟩
  | sourceReadyIdle => exact ⟨_, rfl, .grantIdle⟩
  | powerFail => exact ⟨_, rfl, .supply .failPower⟩
  | powerStable straps => exact ⟨_, rfl, .supply (.stabilizePower straps)⟩
  | rstnAssert => exact ⟨_, rfl, .supply .assertPin⟩
  | rstnRelease straps => exact ⟨_, rfl, .supply (.releasePin straps)⟩
  | _ => exact ⟨_, rfl, .take _ rfl⟩

theorem event_of_exec {c : Instr} {s t : State} (h : exec c s = .next t) : s.Event c t := by
  obtain ⟨u, hu, event⟩ := exec_event c s
  rw [hu] at h
  cases h
  exact event

/-- What holds of a state and is kept by every event and by the passing of time is kept by every step. -/
theorem step_keeps {P : State → Prop} (queue : ∀ s l, P s → P { s with pending := l })
    (tick : ∀ s : State, P s → P s.tick) (event : ∀ s t c, P s → s.Event c t → P t) {s t : State} (hs : P s)
    (h : step s = .next t) : P t := by
  unfold step at h
  split at h
  · cases h
    exact tick s hs
  · exact event _ t _ (queue s _ hs) (event_of_exec h)

/-- The passing of time changes nothing or lowers the running timers of a part that is not stopped. -/
theorem State.tick_cases (s : State) : s.tick = s ∨ (s.stopped = false ∧ s.tick = s.elapse) := by
  unfold State.tick
  split
  · exact .inl rfl
  · simp_all

/-! ### The receiver -/

/-- Only TRXD, the receiver and the notice unit may differ, and of the notice unit one notice handed. -/
structure State.OnlyLink (s t : State) : Prop where
  same : t = { s with trxd := t.trxd, rx := t.rx, notices := t.notices }
  handed : t.notices = s.notices ∨ ∃ x, t.notices = s.notices.hand x

theorem State.OnlyLink.of_set (s : State) (l : Level) (rx : Receiver) :
    s.OnlyLink { s with trxd := l, rx := rx } := ⟨rfl, .inl rfl⟩

theorem State.OnlyLink.of_hand (s : State) (l : Level) (rx : Receiver) (x : Notice) :
    s.OnlyLink (({ s with trxd := l, rx := rx } : State).hand x) := ⟨rfl, .inr ⟨x, rfl⟩⟩

theorem State.receive_onlyLink (s : State) (l : Level) (rx : Receiver) (v : Byte) :
    s.OnlyLink (({ s with trxd := l, rx := rx } : State).receive v) := by
  unfold State.receive State.endFrameReception State.abandon
  simp only
  repeat' split
  all_goals first
    | exact .of_set s _ _
    | exact .of_hand s _ _ _

theorem State.riseToMarking_onlyLink (s : State) (rx : Receiver) (breakEnds : Bool) :
    s.OnlyLink ((s.setRx rx).riseToMarking breakEnds) := by
  unfold State.riseToMarking
  simp only
  repeat' split
  · exact .of_set s _ _
  · exact .of_hand s _ _ _
  · exact .of_set s _ _

theorem State.LinkEvent.onlyLink {s t : State} (h : s.LinkEvent t) : s.OnlyLink t := by
  cases h with
  | goodCharacter v =>
    unfold State.goodCharacter
    repeat' split
    · exact s.riseToMarking_onlyLink _ _
    · exact s.receive_onlyLink _ _ _
    · exact .of_set s _ _
  | badCharacter =>
    unfold State.badCharacter
    simp only
    repeat' split
    · exact .of_set s _ _
    · exact .of_hand s _ _ _
    · exact .of_set s _ _
    · exact .of_set s _ _
  | expireGap =>
    unfold State.expireGap
    split
    · exact .of_hand s _ _ _
    · exact .of_set s _ _
  | enterBreak =>
    unfold State.enterBreak
    simp only
    repeat' split
    · exact .of_set s _ _
    · exact .of_hand s _ _ _
    · exact .of_set s _ _
  | riseToMarking breakEnds => exact s.riseToMarking_onlyLink s.rx breakEnds
  | fall falseStart =>
    unfold State.fall
    simp only
    repeat' split
    all_goals exact .of_set s _ _

/-! ### The engines -/

theorem State.Closed.engineEvent {R : State → State → Prop} (h : Closed R) {s t : State} {b : BranchId}
    (e : s.EngineEvent b t) : R s t := by
  cases e with
  | takeItem p q => exact h.takeItem s b p q
  | endExchange a p q => exact h.endExchange s b a p q
  | timeOutHold => exact h.timeOutHold s b
  | expireRetry p q => exact h.expireRetry s b p q
  | endRecovery p q => exact h.endRecovery s b p q
  | expireRecovery => exact h.expireRecovery s b
  | endAttempt p q => exact h.endAttempt s b p q
  | endClosingMark => exact h.endClosingMark s b

/-! ### Admission -/

/-- Admission takes the head of the queue, which can be taken, or nothing changes. -/
theorem State.take_cases (s : State) (names : Frame → Bool) :
    s.take names = s ∨ ∃ fr rest, s.rx.inbound = fr :: rest ∧ names fr = true ∧ s.admissible fr.kind = true ∧
      s.take names = s.takeHead fr rest := by
  unfold State.take
  split
  · exact .inl rfl
  · rename_i fr rest head
    split
    · rename_i ready
      simp only [Bool.and_eq_true] at ready
      exact .inr ⟨fr, rest, head, ready.1, ready.2, rfl⟩
    · exact .inl rfl

/-! ### The end of a frame -/

/-- What the last byte of a frame leaves for the decision of the arbiter (R146, R186). -/
inductive State.Released (s : State) (straps : RateCode) : OnLine → State → Prop
  | notice : s.Released straps .notice { s with tx := none }
  | reset {i : EntryId} {scope : ResetScope} (h : (s.entry i).scope = some scope) :
      s.Released straps (.response i) (({ s with tx := none } : State).takeEffect scope straps)
  | response {i : EntryId} (h : (s.entry i).scope = none) :
      s.Released straps (.response i) (({ s with tx := none } : State).freeEntry i).beforeDecision

theorem State.endFrame_cases (s : State) (straps : RateCode) :
    s.endFrame straps = s ∨
      ∃ frame u, s.stopped = false ∧ s.tx = some frame ∧ s.Released straps frame.what u ∧
        s.endFrame straps = u.arbitrate u.sourceReady := by
  unfold State.endFrame
  split
  · exact .inl rfl
  · rename_i running
    split
    · exact .inl rfl
    · rename_i frame onLine
      refine .inr ⟨frame, _, by simpa using running, onLine, ?_, rfl⟩
      cases frame.what with
      | notice => exact .notice
      | response i =>
        cases hs : (s.entry i).scope with
        | some scope =>
          have hs' : (({ s with tx := none } : State).entry i).scope = some scope := hs
          simp only [hs']
          exact .reset hs
        | none =>
          have hs' : (({ s with tx := none } : State).entry i).scope = none := hs
          simp only [hs']
          exact .response hs

/-- A decision on an idle TTXD sees one ready source, or nothing changes; where several are ready a free value is used. -/
theorem State.grantIdle_cases (s : State) :
    s.grantIdle = s ∨ ∃ n ready, s.grantDue = true ∧ (∀ x, ready x = true → s.sourceReady x = true) ∧
      s.grantIdle = ({ s with freeCount := n } : State).arbitrate ready := by
  unfold State.grantIdle
  split
  · rename_i due
    split
    · exact .inl rfl
    · rename_i src only
      refine .inr ⟨s.freeCount, (· == src), due, fun x hx => ?_, rfl⟩
      have mem : src ∈ Source.all.filter s.sourceReady := by simp [only]
      rw [beq_iff_eq.mp hx]
      exact (List.mem_filter.mp mem).2
    · refine .inr ⟨s.freeCount + 1, fun x => s.firstReady == some x, due, fun x hx => ?_, rfl⟩
      exact (List.mem_filter.mp (List.mem_of_getElem? (beq_iff_eq.mp hx))).2
  · exact .inl rfl

/-- A decision begins the head frame of a source that is ready, under a grant, or leaves no grant: what is kept by both is kept
by the decision. -/
theorem State.arbitrate_keeps {P : State → Prop} {s : State} {ready : Source → Bool}
    (hready : ∀ x, ready x = true → s.sourceReady x = true)
    (idle : ∀ a : Arbiter, a = { s.arbiter.sync with grant := none } → P (s.setArbiter a))
    (begun : ∀ (src : Source) (n : Nat) (l : List Source), s.sourceReady src = true →
      P ((s.setArbiter { s.arbiter.sync with grant := some (src, n), roundSet := l }).beginFrame src)) :
    P (s.arbitrate ready) := by
  rcases s.arbitrate_cases ready with ⟨src, n, l, hsrc, -, h⟩ | h
  · rw [h]
    exact begun src n l (hready src hsrc)
  · rw [h]
    exact idle _ rfl

/-! ### The supply -/

/-- A supply condition begins and stops the part, one of two ends and the part stays stopped, or start-up begins (R189, R190). -/
theorem State.SupplyEvent.cases {s t : State} {c : Instr} (h : s.SupplyEvent c t) :
    t = s ∨ (∃ sup : Supply, t = ({ s with supply := sup } : State).stop ∧ t.stopped = true) ∨
      (∃ sup : Supply, t = { s with supply := sup } ∧ t.stopped = true) ∨
      ∃ straps cause, t = s.startUp straps cause := by
  cases h with
  | failPower => exact .inr (.inl ⟨_, rfl, by simp [State.failPower, State.stop, State.stopped]⟩)
  | assertPin => exact .inr (.inl ⟨_, rfl, by simp [State.assertPin, State.stop, State.stopped]⟩)
  | stabilizePower straps =>
    unfold State.stabilizePower
    split
    · exact .inl rfl
    · split
      · rename_i pin
        exact .inr (.inr (.inl ⟨_, rfl, by simp [State.stopped, pin]⟩))
      · exact .inr (.inr (.inr ⟨_, _, rfl⟩))
  | releasePin straps =>
    unfold State.releasePin
    split
    · exact .inl rfl
    · split
      · rename_i power
        exact .inr (.inr (.inl ⟨_, rfl, by simp [State.stopped, power]⟩))
      · exact .inr (.inr (.inr ⟨_, _, rfl⟩))

end Sys2Proof.Machine
end

section
/-! PROOFS. The notice queue (Section 9): how a handed notice is taken in, and that every step keeps the bounds of the queue. -/

namespace Sys2Proof.Machine

/-! ### Handing a notice -/

/-- A notice that no queued one before it merges with is merged into the first that does, in its place. -/
theorem coalesce_append {new old merged : Notice} {pre post : List Notice} (hm : old.merge new = some merged)
    (hpre : ∀ x ∈ pre, x.merge new = none) : coalesce new (pre ++ old :: post) = some (pre ++ merged :: post) := by
  induction pre with
  | nil => simp [coalesce, hm]
  | cons x pre ih =>
    obtain ⟨hx, hrest⟩ := List.forall_mem_cons.mp hpre
    simp [coalesce, hx, ih hrest]

theorem Notice.merge_eq_none_of_code {old new : Notice} (h : old.code ≠ new.code) : old.merge new = none := by
  cases hm : old.merge new with
  | none => rfl
  | some merged => exact absurd (Notice.merge_code hm).1 h

/-- A notice is merged with none when it is of no type that coalesces, or none of its type is queued. -/
theorem coalesce_eq_none {new : Notice} {q : List Notice}
    (h : new.code ∈ [0x03#8, 0x04#8, 0x05#8] → ∀ y ∈ q, y.code ≠ new.code) : coalesce new q = none := by
  have unmerged : ∀ y ∈ q, y.merge new = none := fun y hy => by
    cases hm : y.merge new with
    | none => rfl
    | some merged =>
      obtain ⟨same, -, type⟩ := Notice.merge_code hm
      exact absurd same (h type y hy)
  clear h
  induction q with
  | nil => rfl
  | cons y q ih =>
    obtain ⟨hy, hrest⟩ := List.forall_mem_cons.mp unmerged
    simp [coalesce, hy, ih hrest]

theorem NoticeUnit.hand_of_coalesce {n : NoticeUnit} {x : Notice} {q : List Notice} (h : coalesce x n.queue = some q) :
    n.hand x = { n with queue := q } := by
  simp [NoticeUnit.hand, h]

/-- A CREDIT meets the first queued CREDIT, which absorbs it. -/
theorem coalesce_credit {q : List Notice} (h : .credit ∈ q) : coalesce .credit q = some q := by
  induction q with
  | nil => simp at h
  | cons x q ih =>
    by_cases hx : x = .credit
    · subst hx
      rfl
    · have unmerged : x.merge .credit = none := by
        cases x <;> simp_all [Notice.merge]
      rcases List.mem_cons.mp h with rfl | hq
      · exact absurd rfl hx
      · simp [coalesce, unmerged, ih hq]

/-- Settles O12: the three ways in which a queue takes a notice, by whether it meets one of its type. -/
theorem handedNoticeIsMergedAppendedOrDropped : Obligations.HandedNoticeIsMergedAppendedOrDropped := by
  intro n
  refine ⟨fun hc => NoticeUnit.hand_of_coalesce (coalesce_credit hc), ?_, ?_, ?_⟩
  · intro pre post tag count tag' hq hpre
    refine NoticeUnit.hand_of_coalesce ?_
    rw [hq]
    exact coalesce_append rfl fun x hx => Notice.merge_eq_none_of_code (hpre x hx)
  · intro pre post reason count reason' hq hpre
    refine NoticeUnit.hand_of_coalesce ?_
    rw [hq]
    exact coalesce_append rfl fun x hx => Notice.merge_eq_none_of_code (hpre x hx)
  · intro x h
    simp only [NoticeUnit.hand, coalesce_eq_none h]
    rfl

/-! ### Every step -/

theorem NoticeUnit.sound_of_empty {n : NoticeUnit} (h : n.queue = []) : n.Sound := by
  simp [NoticeUnit.Sound, NoticeUnit.countOf, h]

/-- The queue without its head keeps its bounds. -/
theorem NoticeUnit.sound_of_tail {n m : NoticeUnit} {x : Notice} (h : n.Sound) (hq : n.queue = x :: m.queue) : m.Sound := by
  obtain ⟨length, credit, overrun, linkError⟩ := h
  simp only [NoticeUnit.countOf, hq, List.countP_cons, List.length_cons] at length credit overrun linkError
  exact ⟨by omega, by simp only [NoticeUnit.countOf]; omega, by simp only [NoticeUnit.countOf]; omega,
    by simp only [NoticeUnit.countOf]; omega⟩

@[simp] theorem State.freeEntry_notices (s : State) (i : EntryId) : (s.freeEntry i).notices = s.notices := by
  unfold State.freeEntry
  split <;> rfl

/-- Work and admission do nothing to the queue but hand notices. -/
theorem State.noticesSound_admits : State.Admits (fun s t => s.notices.Sound → t.notices.Sound) where
  refl _ := id
  trans h k := k ∘ h
  setEntry _ _ _ := id
  setEngine _ _ _ := id
  setTimers _ _ := id
  placeTimer _ _ _ := id
  hand _ x h := NoticeUnit.hand_sound h x
  join _ _ _ := id
  freeEntry s i h := by rwa [State.freeEntry_notices]
  setRx _ _ := id
  setRoutes _ _ := id
  setArbiter _ _ := id
  setHalt _ := id
  countFree _ _ := id
  allocate _ _ _ := id

theorem State.beginFrame_noticesSound {s : State} (h : s.notices.Sound) (src : Source) :
    (s.beginFrame src).notices.Sound := by
  cases src with
  | branch b =>
    simp only [State.beginFrame]
    split <;> exact h
  | ctl =>
    simp only [State.beginFrame]
    split <;> exact h
  | ntc =>
    simp only [State.beginFrame]
    split
    · exact h
    · rename_i x rest hq
      exact NoticeUnit.sound_of_tail h hq

theorem State.arbitrate_noticesSound {s : State} {ready : Source → Bool}
    (hready : ∀ x, ready x = true → s.sourceReady x = true) (h : s.notices.Sound) : (s.arbitrate ready).notices.Sound :=
  State.arbitrate_keeps (P := fun t => t.notices.Sound) hready (fun _ _ => h)
    (fun src _ _ _ => State.beginFrame_noticesSound (s := s.setArbiter _) (by exact h) src)

theorem State.takeEffect_noticesSound (s : State) (scope : ResetScope) (straps : RateCode) :
    (s.takeEffect scope straps).notices.Sound := by
  cases scope <;> exact NoticeUnit.hand_sound (NoticeUnit.sound_of_empty rfl) _

theorem State.Event.noticesSound {s t : State} {c : Instr} (h : s.notices.Sound) (e : s.Event c t) : t.notices.Sound := by
  cases e with
  | link e =>
    rcases e.onlyLink.handed with same | ⟨x, handed⟩
    · rwa [same]
    · rw [handed]
      exact NoticeUnit.hand_sound h x
  | engine b e => exact State.noticesSound_admits.engineEvent e h
  | expireWatch i => exact State.noticesSound_admits.expireWatch s i h
  | take names _ => exact State.noticesSound_admits.take s names h
  | drain => exact State.noticesSound_admits.drain s h
  | expireQuiesce => exact State.noticesSound_admits.expireQuiesce s h
  | endFrame straps =>
    rcases s.endFrame_cases straps with same | ⟨frame, u, -, -, released, ends⟩
    · rwa [same]
    · rw [ends]
      refine State.arbitrate_noticesSound (fun _ => id) ?_
      generalize frame.what = what at released
      cases released with
      | notice => exact h
      | reset _ => exact State.takeEffect_noticesSound _ _ _
      | response _ =>
        refine State.noticesSound_admits.beforeDecision _ ?_
        rwa [State.freeEntry_notices]
  | grantIdle =>
    rcases s.grantIdle_cases with same | ⟨n, ready, -, hready, granted⟩
    · rwa [same]
    · rw [granted]
      exact State.arbitrate_noticesSound hready h
  | supply e =>
    rcases e.cases with rfl | ⟨sup, rfl, -⟩ | ⟨sup, rfl, -⟩ | ⟨straps, cause, rfl⟩
    · exact h
    · exact h
    · exact h
    · exact NoticeUnit.hand_sound (NoticeUnit.sound_of_empty rfl) _

/-- Settles O54: notices are handed, taken from the head or discarded, and each of these keeps the bounds of the queue. -/
theorem stepKeepsTheNoticeQueueSound : Obligations.StepKeepsTheNoticeQueueSound := fun _ _ =>
  step_keeps (P := fun s => s.notices.Sound) (fun _ _ => id)
    (fun s h => by
      rcases s.tick_cases with same | ⟨-, elapsed⟩
      · rwa [same]
      · rwa [elapsed])
    (fun _ _ _ => State.Event.noticesSound)

end Sys2Proof.Machine
end

section
/-! PROOFS. The outstanding table (Section 2): which entries an operation leaves alone, and that every step keeps tags, counts and
the DATA share sound. -/

namespace Sys2Proof.Machine

/-! ### Entries that an operation leaves alone -/

theorem State.freeEntry_entry_ne (s : State) {i j : EntryId} (h : j ≠ i) : (s.freeEntry i).entry j = s.entry j := by
  by_cases used : (s.entry i).inUse = true
  · rw [State.freeEntry_entry s i j used, if_neg h]
  · simp [State.freeEntry, used]

@[simp] theorem State.removeTimer_entry (s : State) (i j : EntryId) : (s.removeTimer i).entry j = s.entry j := rfl

theorem State.completeEntry_entry (s : State) (i j : EntryId) (st : Status) (r : Reply) :
    (s.completeEntry i st r).entry j =
      if j = i then { s.entry i with state := .complete, status := some st, reply := r } else s.entry j := by
  simp only [State.completeEntry, State.setArbiter_entry, State.setEntry_entry]

theorem State.endPosted_entry_ne (s : State) {i j : EntryId} (st : Status) (h : j ≠ i) :
    (s.endPosted i st).entry j = s.entry j := by
  simp only [State.endPosted]
  split <;> simp [State.freeEntry_entry_ne s h]

theorem State.finishEntry_entry_ne (s : State) {i j : EntryId} (h : j ≠ i) :
    (s.finishEntry i).entry j = s.entry j := by
  simp only [State.finishEntry]
  split
  · exact s.endPosted_entry_ne _ h
  · rw [State.completeEntry_entry, if_neg h]

theorem State.settle_entry_ne (s : State) {i j : EntryId} (h : j ≠ i) : (s.settle i).entry j = s.entry j := by
  simp only [State.settle]
  split
  any_goals rfl
  all_goals
    split
    · rfl
    · exact s.finishEntry_entry_ne h

theorem State.finishMember_entry_ne (s : State) {it : Item} {j : EntryId} (o : Status) (h : j ≠ it.entry) :
    (s.finishMember it o).entry j = s.entry j := by
  rw [State.finishMember, State.settle_entry_ne _ h, State.setMember, State.setEntry_entry_ne _ _ h]

/-! ### A COMPLETE entry stays COMPLETE while work ends around it -/

/-- Entries that are COMPLETE stay so. -/
def State.CompleteStays (s t : State) : Prop := ∀ j, (s.entry j).state = .complete → (t.entry j).state = .complete

theorem State.CompleteStays.refl (s : State) : s.CompleteStays s := fun _ => id

theorem State.CompleteStays.trans {s t u : State} (h : s.CompleteStays t) (k : t.CompleteStays u) : s.CompleteStays u :=
  fun j hj => k j (h j hj)

theorem State.CompleteStays.foldl {α : Type} {f : State → α → State} (hf : ∀ (s : State) a, s.CompleteStays (f s a)) :
    ∀ (l : List α) (s : State), s.CompleteStays (l.foldl f s)
  | [], s => .refl s
  | a :: l, s => (hf s a).trans (State.CompleteStays.foldl hf l (f s a))

theorem State.completeStays_of_table {s t : State} (h : t.table = s.table) : s.CompleteStays t := fun j => by
  simp [State.entry, h]

theorem State.setEngine_completeStays (s : State) (b : BranchId) (g : Engine) : s.CompleteStays (s.setEngine b g) :=
  State.completeStays_of_table rfl

theorem State.setTimers_completeStays (s : State) (l : List WatchTimer) : s.CompleteStays (s.setTimers l) :=
  State.completeStays_of_table rfl

theorem State.setEntry_completeStays (s : State) (i : EntryId) (e : Entry)
    (h : (s.entry i).state = .complete → e.state = .complete) : s.CompleteStays (s.setEntry i e) := fun j hj => by
  rw [State.setEntry_entry]
  split
  · rename_i same
    exact h (same ▸ hj)
  · exact hj

theorem State.settle_completeStays (s : State) (i : EntryId) : s.CompleteStays (s.settle i) := fun j hj => by
  by_cases same : j = i
  · subst same
    simp [State.settle, hj]
  · rwa [State.settle_entry_ne s same]

theorem State.setMember_completeStays (s : State) (it : Item) (st : MemberState) (o : Option Status) :
    s.CompleteStays (s.setMember it st o) := s.setEntry_completeStays _ _ id

theorem State.finishMember_completeStays (s : State) (it : Item) (o : Status) : s.CompleteStays (s.finishMember it o) :=
  (s.setMember_completeStays it _ _).trans (State.settle_completeStays _ _)

theorem State.dropMember_completeStays (s : State) (it : Item) : s.CompleteStays (s.dropMember it) :=
  s.setMember_completeStays it _ _

theorem State.flushBranch_completeStays (s : State) (b : BranchId) (o : Status) : s.CompleteStays (s.flushBranch b o) := by
  unfold State.flushBranch
  simp only
  exact (((s.setEngine_completeStays b _).trans (State.setTimers_completeStays _ _)).trans
    (.foldl (fun s it => s.finishMember_completeStays it o) _ _)).trans
    (.foldl (fun s t => s.finishMember_completeStays _ o) _ _)

theorem State.carryOutDisable_completeStays (s : State) (b : BranchId) : s.CompleteStays (s.carryOutDisable b) :=
  (s.flushBranch_completeStays b _).trans (State.setEngine_completeStays _ _ _)

theorem State.dismiss_completeStays (s : State) (b : BranchId) (o : Status) : s.CompleteStays (s.dismiss b o) := by
  unfold State.dismiss
  split
  · exact .refl s
  · exact (s.setEngine_completeStays b _).trans (State.finishMember_completeStays _ _ _)

theorem State.disable_completeStays (s : State) (b : BranchId) : s.CompleteStays (s.disable b) := by
  unfold State.disable
  simp only
  split
  · exact s.setEngine_completeStays b _
  · exact s.setEngine_completeStays b _
  · exact ((s.setEngine_completeStays b _).trans (State.dismiss_completeStays _ b .branchDown)).trans
      (State.carryOutDisable_completeStays _ b)
  all_goals exact s.carryOutDisable_completeStays b

theorem State.reconfigure_completeStays (s : State) (b : BranchId) (c : BranchConfig) :
    s.CompleteStays (s.reconfigure b c) := by
  unfold State.reconfigure
  simp only
  split
  · exact (s.setEngine_completeStays b _).trans (State.setEngine_completeStays _ b _)
  · exact (s.setEngine_completeStays b _).trans (State.disable_completeStays _ b)

theorem State.cancelMember_completeStays (i : EntryId) (s : State) (x : Member × Nat) :
    s.CompleteStays (State.cancelMember i s x) := by
  unfold State.cancelMember
  simp only
  split
  · exact .refl s
  · exact .refl s
  · exact (s.setEngine_completeStays _ _).trans (State.dropMember_completeStays _ _)
  · split
    · exact (s.setEngine_completeStays _ _).trans (State.dropMember_completeStays _ _)
    · exact s.setEntry_completeStays i _ id

theorem State.cancelTarget_completeStays (s : State) (i : EntryId) : s.CompleteStays (s.cancelTarget i).1 := by
  unfold State.cancelTarget
  split
  · exact (State.CompleteStays.foldl (State.cancelMember_completeStays i) _ _).trans (State.settle_completeStays _ _)
  · exact (State.CompleteStays.foldl (State.cancelMember_completeStays i) _ _).trans (State.settle_completeStays _ _)
  · exact ((s.setTimers_completeStays _).trans (State.dropMember_completeStays _ _)).trans
      (State.settle_completeStays _ _)
  · refine fun j hj => ?_
    rw [State.completeEntry_entry]
    split
    · rfl
    · exact hj
  all_goals exact .refl s

/-! ### The table under the engines -/

theorem State.TableSound.of_table {s t : State} (hs : s.TableSound) (h : t.table = s.table) : t.TableSound :=
  (State.keepsTable_of_table h).sound hs

theorem State.beginTry_keepsTable (s : State) (b : BranchId) (p q : Bool) : s.KeepsTable (s.beginTry b p q) := by
  unfold State.beginTry
  simp only
  split <;> exact State.keepsTable_of_table rfl

theorem State.takeItem_keepsTable (s : State) (b : BranchId) (p q : Bool) : s.KeepsTable (s.takeItem b p q) := by
  unfold State.takeItem
  split
  · split
    · exact .refl s
    · exact ((s.setEngine_keepsTable b _).trans (State.serveMember_keepsTable _ _)).trans (State.beginTry_keepsTable _ b p q)
  · exact .refl s

theorem State.endItemWith_keepsTable (s : State) (b : BranchId) (it : Item) (o : Status) :
    s.KeepsTable (s.endItemWith b it o) := (s.finishMember_keepsTable it o).trans (State.endItem_keepsTable _ b)

theorem State.endTry_keepsTable (s : State) (b : BranchId) (it : Item) (r : TryResult) (p q : Bool) :
    s.KeepsTable (s.endTry b it r p q) := by
  cases r with
  | good value =>
    simp only [State.endTry, State.endItemGood]
    split
    · refine .trans (.trans ?_ (State.finishMember_keepsTable _ it .ok)) (State.endItem_keepsTable _ b)
      exact s.setEntry_keepsTable _ _ ⟨rfl, rfl, rfl⟩
    · exact (s.endWatchRead_keepsTable it value).trans (State.endItem_keepsTable _ b)
    · exact s.endItemWith_keepsTable b it .ok
  | busy =>
    simp only [State.endTry, State.busyEnd]
    repeat' split
    · exact (s.setEngine_keepsTable b _).trans (State.beginTry_keepsTable _ b p q)
    · exact s.setEngine_keepsTable b _
    · exact s.endItemWith_keepsTable b it _
  | checkFailure =>
    simp only [State.endTry, State.checkEnd]
    split
    · exact (s.setEngine_keepsTable b _).trans (State.beginTry_keepsTable _ b p q)
    · exact s.endItemWith_keepsTable b it _
  | rejected => exact s.endItemWith_keepsTable b it _
  | noDevice => exact s.endItemWith_keepsTable b it _

theorem State.endBareRecovery_keepsTable (s : State) (b : BranchId) : s.KeepsTable (s.endBareRecovery b) := by
  simp only [State.endBareRecovery]
  split
  · exact (s.setEngine_keepsTable b _).trans (State.carryOutDisable_keepsTable _ b)
  · exact s.setEngine_keepsTable b _

theorem State.tryAfterRecovery_keepsTable (s : State) (b : BranchId) (it : Item) :
    s.KeepsTable (s.tryAfterRecovery b it) := by
  simp only [State.tryAfterRecovery]
  repeat' split
  · exact ((s.dropMember_keepsTable it).trans (State.settle_keepsTable _ _)).trans (State.endItem_keepsTable _ b)
  · exact s.endItemWith_keepsTable b it _
  · exact s.setEngine_keepsTable b _

theorem State.EngineEvent.keepsTable {s t : State} {b : BranchId} (e : s.EngineEvent b t) : s.KeepsTable t := by
  cases e with
  | takeItem p q => exact s.takeItem_keepsTable b p q
  | endExchange a p q =>
    unfold State.endExchange
    repeat' split
    · exact .refl s
    · exact .refl s
    · exact s.endTry_keepsTable b _ _ p q
  | timeOutHold =>
    unfold State.timeOutHold
    split
    · exact .refl s
    · exact s.setEngine_keepsTable b _
  | expireRetry p q =>
    unfold State.expireRetry
    split
    · exact .refl s
    · exact s.beginTry_keepsTable b p q
  | endRecovery p q =>
    unfold State.endRecovery
    simp only
    repeat' split
    · exact .refl s
    · exact s.tryAfterRecovery_keepsTable b _
    · exact s.endItemWith_keepsTable b _ _
    · exact s.endBareRecovery_keepsTable b
    · exact s.endBareRecovery_keepsTable b
    · exact s.fault_keepsTable b _
    all_goals exact .refl s
  | expireRecovery =>
    simp only [State.expireRecovery]
    split
    · exact s.setEngine_keepsTable b _
    · exact .refl s
  | endAttempt p q =>
    simp only [State.endAttempt]
    repeat' split
    · exact (s.setEngine_keepsTable b _).trans (State.hand_keepsTable _ _)
    · exact s.setEngine_keepsTable b _
    · exact .refl s
  | endClosingMark =>
    simp only [State.endClosingMark]
    repeat' split
    any_goals exact (s.setEngine_keepsTable b _).trans (State.setEngine_keepsTable _ b _)
    any_goals exact (s.setEngine_keepsTable b _).trans (State.carryOutDisable_keepsTable _ b)
    any_goals exact s.setEngine_keepsTable b _
    exact .refl s

theorem State.expireWatch_keepsTable (s : State) (i : EntryId) : s.KeepsTable (s.expireWatch i) := by
  simp only [State.expireWatch]
  repeat' split
  · exact .refl s
  · rename_i waits _ _ _
    have waiting : (s.entry i).state = .waiting := by simpa using (Bool.and_eq_true_iff.mp waits).2
    refine .trans (.trans (t := s.removeTimer i) (s.setTimers_keepsTable _) ?_) (State.setEngine_keepsTable _ _ _)
    refine State.setEntry_keepsTable _ i _ ⟨?_, rfl, rfl⟩
    simp only [State.removeTimer_entry, Entry.inUse, waiting]
    rfl
  · exact .refl s

/-! ### The table under admission -/

section
variable (s : State) (i : EntryId)

theorem State.refuse_keepsTable (st : Status) (h : (s.entry i).inUse = true) : s.KeepsTable (s.refuse i st) := by
  unfold State.refuse
  split
  · exact s.endPosted_keepsTable i st
  · exact s.completeEntry_keepsTable i _ _ h

theorem State.placeMember_keepsTable (x : Member × Nat) : s.KeepsTable (State.placeMember i s x) := by
  unfold State.placeMember
  split
  · exact s.setEngine_keepsTable _ _
  · exact .refl s

theorem State.placeGroup_keepsTable (l : List Member) (h : (s.entry i).inUse = true) :
    s.KeepsTable (s.placeGroup i l) := by
  unfold State.placeGroup
  simp only
  refine .trans (.trans ?_ (.foldl (fun s x => s.placeMember_keepsTable i x) _ _)) (State.settle_keepsTable _ _)
  exact s.setEntry_keepsTable i _ ⟨h.symm, rfl, rfl⟩

theorem State.placeDirect_keepsTable (m : Member) (h : (s.entry i).inUse = true) : s.KeepsTable (s.placeDirect i m) := by
  simp only [State.placeDirect]
  split
  · refine .trans ?_ (State.setEngine_keepsTable _ _ _)
    exact s.setEntry_keepsTable i _ ⟨h.symm, rfl, rfl⟩
  · refine .trans ?_ (State.refuse_keepsTable _ i _ (by rwa [State.setEntry_entry_self]))
    exact s.setEntry_keepsTable i _ ⟨rfl, rfl, rfl⟩

theorem State.resolve_keepsTable (k : Kind) (a : Half) (n : Nat) (d : List Byte) (w : Option WatchRecord)
    (h : (s.entry i).inUse = true) : s.KeepsTable (s.resolve i k a n d w) := by
  unfold State.resolve
  simp only
  refine .trans (s.setEntry_keepsTable i { s.entry i with address := some a, length := some n, data := d } ⟨rfl, rfl, rfl⟩) ?_
  split
  · exact State.refuse_keepsTable _ i _ (by rwa [State.setEntry_entry_self])
  · simp only [State.setEntry_entry_self, State.setEntry_setEntry]
    refine .trans (State.setEntry_keepsTable _ i { s.entry i with
      address := some a, length := some n, data := d, watch := w } ⟨by rw [State.setEntry_entry_self]; rfl, by simp, by simp⟩) ?_
    rw [State.setEntry_setEntry]
    split
    · exact State.placeGroup_keepsTable _ i _ (by rwa [State.setEntry_entry_self])
    · exact State.placeDirect_keepsTable _ i _ (by rwa [State.setEntry_entry_self])
    · exact State.refuse_keepsTable _ i _ (by rwa [State.setEntry_entry_self])

theorem State.commitNow_keepsTable (h : (s.entry i).inUse = true) : s.KeepsTable (s.commitNow i) :=
  (s.setRoutes_keepsTable _).trans (State.completeEntry_keepsTable _ i _ _ h)

theorem State.commit_keepsTable (g : Half) (m : CommitMode) (t : Half) (h : (s.entry i).inUse = true) :
    s.KeepsTable (s.commit i g m t) := by
  simp only [State.commit]
  repeat' split
  · exact s.completeEntry_keepsTable i _ _ h
  · exact s.completeEntry_keepsTable i _ _ h
  · exact s.completeEntry_keepsTable i _ _ h
  · exact s.commitNow_keepsTable i h
  · exact s.commitNow_keepsTable i h
  · refine .trans ?_ (State.setRoutes_keepsTable _ _)
    exact s.setEntry_keepsTable i _ ⟨h.symm, rfl, rfl⟩

theorem State.disable_keepsTable (b : BranchId) : s.KeepsTable (s.disable b) := by
  simp only [State.disable]
  split
  · exact s.setEngine_keepsTable b _
  · exact s.setEngine_keepsTable b _
  · exact ((s.setEngine_keepsTable b _).trans (State.dismiss_keepsTable _ b .branchDown)).trans
      (State.carryOutDisable_keepsTable _ b)
  all_goals exact s.carryOutDisable_keepsTable b

theorem State.reconfigure_keepsTable (b : BranchId) (c : BranchConfig) : s.KeepsTable (s.reconfigure b c) := by
  simp only [State.reconfigure]
  split
  · exact (s.setEngine_keepsTable b _).trans (State.setEngine_keepsTable _ b _)
  · exact (s.setEngine_keepsTable b _).trans (State.disable_keepsTable _ b)

theorem State.cancelMember_keepsTable (x : Member × Nat) : s.KeepsTable (State.cancelMember i s x) := by
  simp only [State.cancelMember]
  repeat' split
  · exact .refl s
  · exact .refl s
  · exact (s.setEngine_keepsTable _ _).trans (State.dropMember_keepsTable _ _)
  · exact (s.setEngine_keepsTable _ _).trans (State.dropMember_keepsTable _ _)
  · exact s.setEntry_keepsTable i _ ⟨rfl, rfl, rfl⟩

theorem State.cancelTarget_keepsTable : s.KeepsTable (s.cancelTarget i).1 := by
  unfold State.cancelTarget
  split
  · exact (State.KeepsTable.foldl (fun s x => s.cancelMember_keepsTable i x) _ _).trans (State.settle_keepsTable _ _)
  · exact (State.KeepsTable.foldl (fun s x => s.cancelMember_keepsTable i x) _ _).trans (State.settle_keepsTable _ _)
  · exact ((s.setTimers_keepsTable _).trans (State.dropMember_keepsTable _ _)).trans (State.settle_keepsTable _ _)
  · rename_i held
    refine (s.setRoutes_keepsTable _).trans (State.completeEntry_keepsTable _ i _ _ ?_)
    simp [Entry.inUse, held]
  all_goals exact .refl s

/-- The execution of a request for an entry allocated to it. -/
theorem State.execute_keepsTable (r : Request) (h : (s.entry i).state = .complete) : s.KeepsTable (s.execute i r) := by
  have used (t : State) (ht : (t.entry i).state = .complete) : (t.entry i).inUse = true := by simp [Entry.inUse, ht]
  have hs := used s h
  cases r with
  | read a n => exact s.resolve_keepsTable i _ _ _ _ _ hs
  | write p a d => exact s.resolve_keepsTable i _ _ _ _ _ hs
  | watch a iv li mask pat => exact s.resolve_keepsTable i _ _ _ _ _ hs
  | cancel tag =>
    simp only [State.execute, State.cancel]
    split
    · exact s.completeEntry_keepsTable i _ _ hs
    · exact (s.cancelTarget_keepsTable _).trans
        (State.completeEntry_keepsTable _ i _ _ (used _ (s.cancelTarget_completeStays _ i h)))
  | stageRoute slot record =>
    simp only [State.execute, State.stage]
    split
    · exact s.completeEntry_keepsTable i _ _ hs
    · exact (s.setRoutes_keepsTable _).trans (State.completeEntry_keepsTable _ i _ _ hs)
  | commit g m t => exact s.commit_keepsTable i g m t hs
  | discard =>
    simp only [State.execute, State.discardStaging]
    split
    · exact s.completeEntry_keepsTable i _ _ hs
    · exact (s.setRoutes_keepsTable _).trans (State.completeEntry_keepsTable _ i _ _ hs)
  | setBranch b c =>
    exact (s.reconfigure_keepsTable b c).trans
      (State.completeEntry_keepsTable _ i _ _ (used _ (s.reconfigure_completeStays b c i h)))
  | setArbiter c => exact (s.setArbiter_keepsTable _).trans (State.completeEntry_keepsTable _ i _ _ hs)
  | reset scope =>
    have halted : s.KeepsTable { s with halt := true } := State.keepsTable_of_table rfl
    exact (halted.trans (State.setEntry_keepsTable _ i { s.entry i with scope := some scope } ⟨rfl, rfl, rfl⟩)).trans
      (State.completeEntry_keepsTable _ i _ _ (by rwa [State.setEntry_entry_self]))
  | identify => exact s.completeEntry_keepsTable i _ _ hs
  | getStatus => exact s.completeEntry_keepsTable i _ _ hs
  | readRoute bank slot => exact s.completeEntry_keepsTable i _ _ hs
  | getBranch b => exact s.completeEntry_keepsTable i _ _ hs

end

/-! ### Allocation -/

theorem State.enter_entry (s : State) (i j : EntryId) (e : Entry) :
    (s.enter i e).entry j = if j = i then e else s.entry j := by
  simp only [State.enter, State.entry, OutstandingTable.raise_entries]
  exact Table.get_set _ _ _ _

theorem State.enter_inUseOf (s : State) (i : EntryId) (e : Entry) (cls : RequestClass)
    (free : (s.entry i).inUse = false) (used : e.inUse = true) :
    (s.enter i e).inUseOf cls = s.inUseOf cls + (if e.cls = cls then 1 else 0) := by
  unfold State.inUseOf
  split
  · rename_i same
    refine (countP_change (i := i) (by simp [used, same]) (by simp [free]) (fun j hj => ?_) _
      (List.nodup_finRange 16) (List.mem_finRange i)).symm
    rw [State.enter_entry, if_neg hj]
  · rename_i other
    rw [Nat.add_zero]
    refine List.countP_congr fun j _ => ?_
    rw [State.enter_entry]
    split
    · rename_i hj
      simp [hj, free, other]
    · rfl

/-- A FREE entry is allocated to a frame whose tag no entry in use holds, within the DATA share (R24, R30, R32, R45). -/
theorem State.allocate_tableSound {s : State} {i : EntryId} {fr : Frame} (hs : s.TableSound)
    (free : (s.entry i).inUse = false) (fresh : s.tagInUse fr.tag = false)
    (share : classOf fr.kind = .data → s.table.dataInUse < 14) : (s.allocate i fr).TableSound := by
  rw [State.allocate_eq_enter]
  generalize hr : fr.record s.routes.generation = record
  have used : record.inUse = true := by subst hr; rfl
  have tag : record.tag = fr.tag := by subst hr; rfl
  have cls : record.cls = classOf fr.kind := by subst hr; rfl
  have unused : ∀ j, (s.entry j).inUse = true → (s.entry j).tag ≠ fr.tag := by
    simpa [State.tagInUse] using fresh
  refine ⟨fun j k hj hk ht => ?_, ?_, ?_, ?_⟩
  · rw [State.enter_entry] at hj hk ht
    rw [State.enter_entry] at ht
    split at hj <;> split at hk
    · simp_all
    · rename_i hji hki
      rw [if_pos hji, if_neg hki, tag] at ht
      exact absurd ht.symm (unused k hk)
    · rename_i hji hki
      rw [if_neg hji, if_pos hki, tag] at ht
      exact absurd ht (unused j hj)
    · rename_i hji hki
      rw [if_neg hji, if_neg hki] at ht
      exact hs.tags j k hj hk ht
  · rw [State.enter_inUseOf s i _ _ free used, ← hs.data]
    cases hc : record.cls <;> simp [State.enter, OutstandingTable.raise, hc]
  · rw [State.enter_inUseOf s i _ _ free used, ← hs.control]
    cases hc : record.cls <;> simp [State.enter, OutstandingTable.raise, hc]
  · have bound := hs.share
    cases hc : record.cls with
    | data =>
      have below := share (cls.symm.trans hc)
      simp only [State.enter, OutstandingTable.raise, hc]
      omega
    | control => simpa [State.enter, OutstandingTable.raise, hc] using bound

theorem State.lowestFree_inUse {s : State} {i : EntryId} (h : s.lowestFree = some i) : (s.entry i).inUse = false := by
  simpa using List.find?_some h

theorem State.admissible_share {s : State} {kind : Byte} (h : s.admissible kind = true) (hc : classOf kind = .data) :
    s.table.dataInUse < 14 := by
  simp only [State.admissible, hc, Bool.and_eq_true, decide_eq_true_eq] at h
  exact h.2.1

theorem State.runChecks_tableSound {s : State} {fr : Frame} (hs : s.TableSound)
    (share : classOf fr.kind = .data → s.table.dataInUse < 14) : (s.runChecks fr).TableSound := by
  unfold State.runChecks
  split
  · exact (s.hand_keepsTable _).sound hs
  · rename_i fresh
    split
    · exact hs
    · rename_i i free
      have allocated := State.allocate_tableSound (i := i) hs (State.lowestFree_inUse free) (by simpa using fresh) share
      have complete : ((s.allocate i fr).entry i).state = .complete := by
        rw [State.allocate_eq_enter, State.enter_entry_self]
        rfl
      split
      · exact (State.refuse_keepsTable _ i _ (by simp [Entry.inUse, complete])).sound allocated
      · exact (State.execute_keepsTable _ i _ complete).sound allocated

theorem State.takeHead_tableSound {s : State} {fr : Frame} (rest : List Frame) (hs : s.TableSound)
    (share : classOf fr.kind = .data → s.table.dataInUse < 14) : (s.takeHead fr rest).TableSound := by
  unfold State.takeHead
  simp only
  repeat' split
  · exact State.runChecks_tableSound (hs.of_table rfl) share
  · exact (State.hand_keepsTable _ _).sound (State.runChecks_tableSound (hs.of_table rfl) share)
  · exact State.runChecks_tableSound (hs.of_table rfl) share

theorem State.take_tableSound {s : State} (names : Frame → Bool) (hs : s.TableSound) : (s.take names).TableSound := by
  rcases s.take_cases names with same | ⟨fr, rest, -, -, ready, taken⟩
  · rwa [same]
  · rw [taken]
    exact State.takeHead_tableSound rest hs (State.admissible_share ready)

theorem State.drain_tableSound {s : State} (hs : s.TableSound) : s.drain.TableSound := by
  simp only [State.drain]
  repeat' split
  · exact hs
  · rename_i held
    refine (State.KeepsTable.trans (s.setRoutes_keepsTable _) (State.completeEntry_keepsTable _ _ _ _ ?_)).sound hs
    simp only [Entry.inUse, held]
    rfl
  · exact (s.setRoutes_keepsTable _).sound hs
  · exact hs

theorem State.expireQuiesce_tableSound {s : State} (hs : s.TableSound) : s.expireQuiesce.TableSound := by
  simp only [State.expireQuiesce]
  repeat' split
  · exact hs
  · exact hs
  · rename_i held
    refine (State.KeepsTable.trans (s.setRoutes_keepsTable _) (State.completeEntry_keepsTable _ _ _ _ ?_)).sound hs
    simp only [Entry.inUse, held]
    rfl
  · exact (s.setRoutes_keepsTable _).sound hs

/-! ### The table under the end of a frame -/

theorem State.beforeDecision_tableSound {s : State} (hs : s.TableSound) : s.beforeDecision.TableSound := by
  unfold State.beforeDecision
  split
  · refine List.foldlRecOn (motive := State.TableSound) _ _ ?_ fun t ht c _ => ?_
    · exact hs.of_table rfl
    · cases c
      · exact State.drain_tableSound ht
      · exact State.take_tableSound _ ht
  · exact hs

theorem State.beginResponse_tableSound {s : State} (i : EntryId) (hs : s.TableSound) : (s.beginResponse i).TableSound := by
  have sending : s.KeepsTable (s.setEntry i
      { s.entry i with state := if (s.entry i).state = .complete then .sending else (s.entry i).state }) := by
    refine s.setEntry_keepsTable i _ ⟨?_, rfl, rfl⟩
    by_cases h : (s.entry i).state = .complete
    · simp only [Entry.inUse, h]
      rfl
    · simp only [Entry.inUse, h, if_false]
  exact (sending.sound hs).of_table rfl

theorem State.beginFrame_tableSound {s : State} (src : Source) (hs : s.TableSound) : (s.beginFrame src).TableSound := by
  cases src with
  | branch b =>
    simp only [State.beginFrame]
    split
    · exact hs
    · exact State.beginResponse_tableSound _ (hs.of_table rfl)
  | ctl =>
    simp only [State.beginFrame]
    split
    · exact hs
    · exact State.beginResponse_tableSound _ (hs.of_table rfl)
  | ntc =>
    simp only [State.beginFrame]
    split
    · exact hs
    · exact hs.of_table rfl

theorem State.arbitrate_tableSound {s : State} {ready : Source → Bool}
    (hready : ∀ x, ready x = true → s.sourceReady x = true) (hs : s.TableSound) : (s.arbitrate ready).TableSound := by
  exact State.arbitrate_keeps (P := State.TableSound) hready (fun _ _ => hs.of_table rfl)
    (fun src _ _ _ => State.beginFrame_tableSound src (hs.of_table rfl))

theorem State.tableSound_of_reset {s : State} (h : s.table = OutstandingTable.reset) : s.TableSound := by
  have free (i : EntryId) : s.entry i = Entry.free := by simp [State.entry, h, OutstandingTable.reset]
  refine ⟨fun i _ hi => ?_, ?_, ?_, ?_⟩
  · simp [free] at hi
  all_goals simp [h, OutstandingTable.reset, State.inUseOf, free]

theorem State.takeEffect_table (s : State) (scope : ResetScope) (straps : RateCode) :
    (s.takeEffect scope straps).table = OutstandingTable.reset := by
  cases scope <;> rfl

theorem State.Event.tableSound {s t : State} {c : Instr} (hs : s.TableSound) (e : s.Event c t) : t.TableSound := by
  cases e with
  | link e =>
    rw [e.onlyLink.same]
    exact hs.of_table rfl
  | engine b e => exact e.keepsTable.sound hs
  | expireWatch i => exact (s.expireWatch_keepsTable i).sound hs
  | take names _ => exact State.take_tableSound names hs
  | drain => exact State.drain_tableSound hs
  | expireQuiesce => exact State.expireQuiesce_tableSound hs
  | endFrame straps =>
    rcases s.endFrame_cases straps with unchanged | ⟨frame, u, -, -, released, ends⟩
    · rwa [unchanged]
    · rw [ends]
      refine State.arbitrate_tableSound (fun _ => id) ?_
      generalize frame.what = what at released
      cases released with
      | notice => exact hs.of_table rfl
      | reset _ => exact State.tableSound_of_reset (State.takeEffect_table _ _ _)
      | response _ =>
        exact State.beforeDecision_tableSound ((State.freeEntry_keepsTable _ _).sound (hs.of_table rfl))
  | grantIdle =>
    rcases s.grantIdle_cases with unchanged | ⟨n, ready, -, hready, granted⟩
    · rwa [unchanged]
    · rw [granted]
      exact State.arbitrate_tableSound hready (hs.of_table rfl)
  | supply e =>
    rcases e.cases with rfl | ⟨sup, rfl, -⟩ | ⟨sup, rfl, -⟩ | ⟨straps, cause, rfl⟩
    · exact hs
    · exact hs.of_table rfl
    · exact hs.of_table rfl
    · exact State.tableSound_of_reset rfl

/-- Settles O55: an entry keeps what its allocation fixed until it is freed, and allocation takes a FREE entry, a fresh tag and,
for a DATA frame, a place within the share. -/
theorem stepKeepsTheOutstandingTableSound : Obligations.StepKeepsTheOutstandingTableSound := fun _ _ =>
  step_keeps (P := State.TableSound) (fun _ _ hs => hs.of_table rfl)
    (fun s hs => by
      rcases s.tick_cases with same | ⟨-, elapsed⟩
      · rwa [same]
      · rw [elapsed]
        exact hs.of_table rfl)
    (fun _ _ _ => State.Event.tableSound)

end Sys2Proof.Machine
end

section
/-! PROOFS. Request frames (12.3, 12.4): each field is read back as it was written, and a frame that is read as a request is the
frame of that request. -/

namespace Sys2Proof.Machine

/-! ### Fields -/

theorem Half.ofBytes_toNat (h l : Byte) : (Half.ofBytes h l).toNat = 256 * h.toNat + l.toNat := by
  have below := l.isLt
  rw [Half.ofBytes, BitVec.toNat_append, ← Nat.shiftLeft_add_eq_or_of_lt below, Nat.shiftLeft_eq]
  omega

theorem Half.high_toNat (w : Half) : w.high.toNat = w.toNat / 256 := by
  have below := w.isLt
  rw [Half.high, BitVec.extractLsb'_toNat, Nat.shiftRight_eq_div_pow]
  omega

theorem Half.low_toNat (w : Half) : w.low.toNat = w.toNat % 256 := by
  rw [Half.low, BitVec.extractLsb'_toNat, Nat.shiftRight_zero]

@[simp] theorem Half.ofBytes_high_low (w : Half) : Half.ofBytes w.high w.low = w := by
  apply BitVec.eq_of_toNat_eq
  rw [Half.ofBytes_toNat, Half.high_toNat, Half.low_toNat]
  omega

theorem Half.high_ofBytes (h l : Byte) : (Half.ofBytes h l).high = h := by
  apply BitVec.eq_of_toNat_eq
  have below := l.isLt
  rw [Half.high_toNat, Half.ofBytes_toNat]
  omega

theorem Half.low_ofBytes (h l : Byte) : (Half.ofBytes h l).low = l := by
  apply BitVec.eq_of_toNat_eq
  have below := l.isLt
  rw [Half.low_toNat, Half.ofBytes_toNat]
  omega

@[simp] theorem halfBytes_ofBytes (h l : Byte) : halfBytes (Half.ofBytes h l) = [h, l] := by
  rw [halfBytes, Half.high_ofBytes, Half.low_ofBytes]

@[simp] theorem Byte.ofCount_of_toNat (c : Byte) : Byte.ofCount c.toNat = c := by simp [Byte.ofCount]

/-- A name found by its code has that code. -/
theorem code_of_find {α : Type} {code : α → Byte} {l : List α} {c : Byte} {k : α}
    (h : l.find? (fun k => code k == c) = some k) : code k = c := by
  simpa using List.find?_some h

theorem RouteKind.ofCode_code (k : RouteKind) : RouteKind.ofCode k.code = some k := by cases k <;> rfl

theorem CommitMode.ofCode_code (m : CommitMode) : CommitMode.ofCode m.code = some m := by cases m <;> rfl

theorem ResetScope.ofCode_code (sc : ResetScope) : ResetScope.ofCode sc.code = some sc := by cases sc <;> rfl

theorem ArbiterMode.ofCode_code (m : ArbiterMode) : ArbiterMode.ofCode m.code = some m := by cases m <;> rfl

theorem YieldPolicy.ofCode_code (y : YieldPolicy) : YieldPolicy.ofCode y.code = some y := by cases y <;> rfl

theorem Source.ofCode_code (x : Source) : Source.ofCode x.code = some x := by
  cases x with
  | branch b =>
    revert b
    decide
  | ctl => rfl
  | ntc => rfl

theorem yesNoOfCode_yesNo (b : Bool) : yesNoOfCode (yesNo b) = some b := by cases b <;> rfl

theorem yesNo_of_yesNoOfCode {c : Byte} {b : Bool} (h : yesNoOfCode c = some b) : yesNo b = c := by
  unfold yesNoOfCode at h
  split at h
  · cases h
    simp_all [yesNo]
  · split at h
    · cases h
      simp_all [yesNo]
    · cases h

theorem ofCount_of_slotOfCode {c : Byte} {slot : SlotId} (h : slotOfCode c = some slot) : Byte.ofCount slot.val = c := by
  unfold slotOfCode at h
  split at h
  · cases h
    exact Byte.ofCount_of_toNat c
  · cases h

theorem ofCount_of_branchOfCode {c : Byte} {b : BranchId} (h : branchOfCode c = some b) : Byte.ofCount b.val = c := by
  unfold branchOfCode at h
  split at h
  · cases h
    exact Byte.ofCount_of_toNat c
  · cases h

theorem rightsOfByte_byte (r : Rights) : rightsOfByte r.byte = some r := by
  obtain ⟨rd, wr, wa⟩ := r
  cases rd <;> cases wr <;> cases wa <;> rfl

/-- A byte of rights has its five reserved bits zero, so the three rights give it back (12.3, R192). -/
theorem byte_of_rightsOfByte {c : Byte} {r : Rights} (h : rightsOfByte c = some r) : r.byte = c := by
  have all : ∀ c : Byte, c &&& 0xF8#8 = 0#8 → Rights.byte ⟨c.getLsbD 0, c.getLsbD 1, c.getLsbD 2⟩ = c := by
    decide +kernel
  unfold rightsOfByte at h
  split at h
  · rename_i reserved
    cases h
    exact all c reserved
  · cases h

/-! ### Records -/

theorem membersOfBytes_memberBytes (ms : List RouteMember) : membersOfBytes ms.length (memberBytes ms) = some ms := by
  induction ms with
  | nil => rfl
  | cons m ms ih =>
    have bytes : memberBytes (m :: ms) = m.branch :: m.device :: m.base :: memberBytes ms := rfl
    rw [List.length_cons, bytes, membersOfBytes, ih]
    rfl

theorem memberBytes_of_membersOfBytes : ∀ {n : Nat} {l : List Byte} {ms : List RouteMember},
    membersOfBytes n l = some ms → ms.length = n ∧ memberBytes ms = l
  | 0, [], ms, h => by
    cases h
    exact ⟨rfl, rfl⟩
  | n + 1, b :: d :: r :: rest, ms, h => by
    simp only [membersOfBytes, Option.bind_eq_bind, Option.bind_eq_some_iff] at h
    obtain ⟨ms', hrest, hms⟩ := h
    cases hms
    obtain ⟨length, bytes⟩ := memberBytes_of_membersOfBytes hrest
    exact ⟨by simp [length], by rw [← bytes]; rfl⟩
  | 0, _ :: _, _, h => by cases h
  | _ + 1, [], _, h => by cases h
  | _ + 1, [_], _, h => by cases h
  | _ + 1, [_, _], _, h => by cases h

theorem routeOfBytes_bytes {r : Route} (h : r.members.length ≤ 4) : routeOfBytes r.bytes = some r := by
  have count : (Byte.ofCount r.members.length).toNat = r.members.length := Byte.ofCount_toNat (by omega)
  have few : ¬ 4 < r.members.length := by omega
  simp [Route.bytes, halfBytes, routeOfBytes, count, few, membersOfBytes_memberBytes, RouteKind.ofCode_code,
    rightsOfByte_byte]

theorem bytes_of_routeOfBytes {l : List Byte} {r : Route} (h : routeOfBytes l = some r) :
    r.bytes = l ∧ r.members.length ≤ 4 := by
  unfold routeOfBytes at h
  split at h
  · rename_i k bh bl lh ll rights m rest
    split at h
    · cases h
    · rename_i few
      simp only [Option.bind_eq_bind, Option.bind_eq_some_iff] at h
      obtain ⟨members, hmembers, kind, hkind, rt, hrights, hr⟩ := h
      cases hr
      obtain ⟨length, bytes⟩ := memberBytes_of_membersOfBytes hmembers
      refine ⟨?_, by simpa [length] using few⟩
      simp [Route.bytes, length, bytes, byte_of_rightsOfByte hrights,
        code_of_find (code := RouteKind.code) hkind]
  · cases h

theorem configOfBytes_bytes {c : BranchConfig} (h : c.inRange = true) : configOfBytes c.bytes = some c := by
  have range := h
  simp only [BranchConfig.inRange, Bool.and_eq_true, decide_eq_true_eq] at range
  obtain ⟨⟨⟨⟨speed, hold⟩, busy⟩, delay⟩, check⟩ := range
  have value {n : Nat} (hn : n ≤ 255) : (Byte.ofCount n).toNat = n := Byte.ofCount_toNat (by omega)
  simp [BranchConfig.bytes, configOfBytes, yesNoOfCode_yesNo, value (n := c.speed) (by omega), value (n := c.hold) hold.2,
    value (n := c.busyLimit) (by omega), value (n := c.retryDelay) delay, value (n := c.checkLimit) (by omega), h]

theorem bytes_of_configOfBytes {l : List Byte} {c : BranchConfig} (h : configOfBytes l = some c) :
    c.bytes = l ∧ c.inRange = true := by
  unfold configOfBytes at h
  split at h
  · simp only [Option.bind_eq_bind, Option.bind_eq_some_iff] at h
    obtain ⟨enabled, hEnabled, hc⟩ := h
    split at hc
    · rename_i range
      cases hc
      exact ⟨by simp [BranchConfig.bytes, yesNo_of_yesNoOfCode hEnabled], range⟩
    · cases hc
  · cases h

theorem mapM_sourceOfCode_code (l : List Source) : (l.map Source.code).mapM Source.ofCode = some l := by
  induction l with
  | nil => rfl
  | cons x l ih => simp [List.mapM_cons, Source.ofCode_code, ih]

theorem code_of_mapM_sourceOfCode : ∀ {bytes : List Byte} {l : List Source},
    bytes.mapM Source.ofCode = some l → l.map Source.code = bytes
  | [], l, h => by
    cases h
    rfl
  | c :: bytes, l, h => by
    simp only [List.mapM_cons, Option.bind_eq_bind, Option.bind_eq_some_iff] at h
    obtain ⟨x, hx, rest, hrest, hl⟩ := h
    cases hl
    rw [List.map_cons, code_of_find (code := Source.code) hx, code_of_mapM_sourceOfCode hrest]

theorem ArbiterConfig.legal_iff (c : ArbiterConfig) :
    c.legal = true ↔ (c.burst = 1 ∨ c.burst = 2 ∨ c.burst = 4 ∨ c.burst = 8) ∧ isPriorityOrder c.order = true := by
  simp [ArbiterConfig.legal, burstLimits]

theorem arbiterOfBytes_bytes {c : ArbiterConfig} (h : c.legal = true) : arbiterOfBytes c.bytes = some c := by
  obtain ⟨burst, -⟩ := c.legal_iff.mp h
  have value : (Byte.ofCount c.burst).toNat = c.burst := Byte.ofCount_toNat (by omega)
  simp [ArbiterConfig.bytes, arbiterOfBytes, ArbiterMode.ofCode_code, YieldPolicy.ofCode_code, mapM_sourceOfCode_code,
    value, h, -List.mapM_map]

theorem bytes_of_arbiterOfBytes {l : List Byte} {c : ArbiterConfig} (h : arbiterOfBytes l = some c) :
    c.bytes = l ∧ c.legal = true := by
  unfold arbiterOfBytes at h
  split at h
  · simp only [Option.bind_eq_bind, Option.bind_eq_some_iff] at h
    obtain ⟨mode, hmode, policy, hpolicy, order, horder, hc⟩ := h
    split at hc
    · rename_i legal
      cases hc
      refine ⟨?_, legal⟩
      simp [ArbiterConfig.bytes, code_of_find (code := ArbiterMode.code) hmode,
        code_of_find (code := YieldPolicy.code) hpolicy, code_of_mapM_sourceOfCode horder]
    · cases hc
  · cases h

/-! ### Requests written are read back -/

theorem Frame.request_frame {r : Request} (tag : Byte) (h : r.wellFormed = true) :
    (r.frame tag).request = some r := by
  have value {n : Nat} (hn : n ≤ 255) : (Byte.ofCount n).toNat = n := Byte.ofCount_toNat (by omega)
  have kind (k : Kind) : Kind.ofCode k.code = some k := (Kind.ofCode_eq_some_iff _ k).mpr rfl
  simp only [Request.frame, Frame.request, kind]
  cases r with
  | read a n =>
    obtain ⟨low, high⟩ : 1 ≤ n ∧ n ≤ 32 := by simpa [Request.wellFormed] using h
    simp [Request.kind, Request.payload, halfBytes, readOfPayload, value (n := n) (by omega), low, high]
  | write posted a d =>
    obtain ⟨low, high⟩ : 1 ≤ d.length ∧ d.length ≤ 32 := of_decide_eq_true h
    cases posted <;>
      simp [Request.kind, Request.payload, halfBytes, writeOfPayload, value (n := d.length) (by omega),
        List.ne_nil_of_length_pos low, high]
  | watch a interval limit mask pattern =>
    simp only [Request.wellFormed, Bool.and_eq_true, decide_eq_true_eq] at h
    obtain ⟨⟨⟨low, high, length⟩, ilow, ihigh⟩, llow, lhigh⟩ := h
    have total : mask.length + pattern.length = 2 * mask.length := by omega
    simp [Request.kind, Request.payload, halfBytes, watchOfPayload, value (n := mask.length) (by omega), value ihigh,
      value lhigh, low, high, ilow, llow, total]
  | cancel t => rfl
  | identify => rfl
  | getStatus => rfl
  | stageRoute slot record =>
    have few : record.members.length ≤ 4 := by simpa [Request.wellFormed] using h
    simp [Request.kind, Request.payload, slotOfCode_ofCount, routeOfBytes_bytes few]
  | readRoute bank slot =>
    simp [Request.kind, Request.payload, BankSelector.ofCode_code, slotOfCode_ofCount]
  | commit g m t =>
    have timeout : ¬ (m = .quiesce ∧ (t.toNat = 0 ∨ 60000 < t.toNat)) := by
      rintro ⟨rfl, ht⟩
      have range : 1 ≤ t.toNat ∧ t.toNat ≤ 60000 := by simpa [Request.wellFormed] using h
      omega
    simp [Request.kind, Request.payload, halfBytes, commitOfPayload, CommitMode.ofCode_code]
    simpa using timeout
  | discard => rfl
  | setBranch b c =>
    simp [Request.kind, Request.payload, branchOfCode_ofCount, configOfBytes_bytes (c := c) h]
  | getBranch b => simp [Request.kind, Request.payload, branchOfCode_ofCount]
  | setArbiter c => simp [Request.kind, Request.payload, arbiterOfBytes_bytes (c := c) h]
  | reset scope => simp [Request.kind, Request.payload, ResetScope.ofCode_code]

theorem Request.payload_length_le {r : Request} (h : r.wellFormed = true) : r.payload.length ≤ 38 := by
  cases r with
  | read a n => simp [Request.payload, halfBytes]
  | write posted a d =>
    have range : 1 ≤ d.length ∧ d.length ≤ 32 := by simpa [Request.wellFormed] using h
    simp only [Request.payload, halfBytes, List.length_append, List.length_cons, List.length_nil]
    omega
  | watch a interval limit mask pattern =>
    simp only [Request.wellFormed, Bool.and_eq_true, decide_eq_true_eq] at h
    obtain ⟨⟨⟨low, high, length⟩, -⟩, -⟩ := h
    simp only [Request.payload, halfBytes, List.length_append, List.length_cons, List.length_nil]
    omega
  | stageRoute slot record =>
    have few : record.members.length ≤ 4 := by simpa [Request.wellFormed] using h
    have bytes (l : List RouteMember) : (memberBytes l).length = 3 * l.length := by
      induction l with
      | nil => rfl
      | cons m l ih =>
        have cons : memberBytes (m :: l) = m.branch :: m.device :: m.base :: memberBytes l := rfl
        simp only [cons, List.length_cons, ih]
        omega
    simp only [Request.payload, Route.bytes, halfBytes, List.length_append, List.length_cons, List.length_nil, bytes]
    omega
  | setArbiter c =>
    obtain ⟨-, order⟩ := c.legal_iff.mp h
    have six : c.order.length = 6 := by
      simp only [isPriorityOrder, Bool.and_eq_true, beq_iff_eq] at order
      exact order.1
    simp [Request.payload, ArbiterConfig.bytes, six]
  | commit g m t => simp [Request.payload, halfBytes]
  | setBranch b c => simp [Request.payload, BranchConfig.bytes]
  | _ => simp [Request.payload]

/-! ### A frame read as a request is the frame of that request -/

/-- The kind, the ranges and the payload of what a reading of a payload gave. -/
structure Request.Reads (r : Request) (k : Kind) (payload : List Byte) : Prop where
  kind : r.kind = k
  wellFormed : r.wellFormed = true
  payload : r.payload = payload

theorem reads_of_readOfPayload {l : List Byte} {r : Request} (h : readOfPayload l = some r) : r.Reads .read l := by
  unfold readOfPayload at h
  split at h
  · split at h
    · rename_i range
      cases h
      exact ⟨rfl, by simpa [Request.wellFormed] using range, by simp [Request.payload]⟩
    · cases h
  · cases h

theorem reads_of_writeOfPayload {posted : Bool} {l : List Byte} {r : Request} (h : writeOfPayload posted l = some r) :
    r.Reads (if posted then .writePosted else .write) l := by
  unfold writeOfPayload at h
  split at h
  · split at h
    · rename_i range
      cases h
      obtain ⟨low, high, length⟩ := range
      exact ⟨rfl, by simp only [Request.wellFormed, decide_eq_true_eq]; omega, by simp [Request.payload, length]⟩
    · cases h
  · cases h

theorem reads_of_watchOfPayload {l : List Byte} {r : Request} (h : watchOfPayload l = some r) : r.Reads .watch l := by
  unfold watchOfPayload at h
  split at h
  · rename_i hi lo n interval limit rest
    split at h
    · rename_i range
      cases h
      obtain ⟨low, high, length, ilow, llow⟩ := range
      have mask : (rest.take n.toNat).length = n.toNat := by
        rw [List.length_take]
        omega
      have pattern : (rest.drop n.toNat).length = n.toNat := by
        rw [List.length_drop]
        omega
      refine ⟨rfl, ?_, by simp [Request.payload, -List.length_take, mask]⟩
      simp only [Request.wellFormed, mask, pattern, Bool.and_eq_true, decide_eq_true_eq]
      have ihigh := interval.isLt
      have lhigh := limit.isLt
      exact ⟨⟨⟨low, high, trivial⟩, ilow, by omega⟩, llow, by omega⟩
    · cases h
  · cases h

theorem reads_of_commitOfPayload {l : List Byte} {r : Request} (h : commitOfPayload l = some r) : r.Reads .commit l := by
  unfold commitOfPayload at h
  split at h
  · rename_i gh gl m th tl
    simp only [Option.bind_eq_bind, Option.bind_eq_some_iff] at h
    obtain ⟨mode, hmode, hr⟩ := h
    split at hr
    · cases hr
    · rename_i timeout
      cases hr
      refine ⟨rfl, ?_, by simp [Request.payload, code_of_find (code := CommitMode.code) hmode]⟩
      cases mode with
      | immediate => rfl
      | quiesce =>
        simp only [true_and] at timeout
        simp only [Request.wellFormed, Bool.or_eq_true, decide_eq_true_eq]
        omega
  · cases h

/-- What a frame is read as has the frame's kind, its payload and fields in their ranges. -/
theorem Frame.reads_of_request {fr : Frame} {r : Request} (h : fr.request = some r) :
    ∃ k : Kind, fr.kind = k.code ∧ r.Reads k fr.payload := by
  unfold Frame.request at h
  cases hk : Kind.ofCode fr.kind with
  | none => simp [hk] at h
  | some k =>
    refine ⟨k, (Kind.ofCode_eq_some_iff _ _).mp hk, ?_⟩
    simp only [hk] at h
    cases k with
    | read => exact reads_of_readOfPayload h
    | write => exact reads_of_writeOfPayload h
    | writePosted => exact reads_of_writeOfPayload h
    | watch => exact reads_of_watchOfPayload h
    | cancel =>
      simp only at h
      split at h <;> cases h
      rename_i payload
      exact ⟨rfl, rfl, payload.symm⟩
    | identify =>
      simp only at h
      split at h <;> cases h
      rename_i payload
      exact ⟨rfl, rfl, payload.symm⟩
    | getStatus =>
      simp only at h
      split at h <;> cases h
      rename_i payload
      exact ⟨rfl, rfl, payload.symm⟩
    | stageRoute =>
      simp only at h
      split at h
      · rename_i payload
        simp only [Option.bind_eq_bind, Option.bind_eq_some_iff] at h
        obtain ⟨slot, hslot, record, hrecord, hr⟩ := h
        cases hr
        obtain ⟨bytes, few⟩ := bytes_of_routeOfBytes hrecord
        refine ⟨rfl, by simpa [Request.wellFormed] using few, ?_⟩
        rw [payload, Request.payload, ofCount_of_slotOfCode hslot, bytes]
      · cases h
    | readRoute =>
      simp only at h
      split at h
      · rename_i payload
        simp only [Option.bind_eq_bind, Option.bind_eq_some_iff] at h
        obtain ⟨bank, hbank, slot, hslot, hr⟩ := h
        cases hr
        refine ⟨rfl, rfl, ?_⟩
        rw [payload, Request.payload, ofCount_of_slotOfCode hslot, code_of_find (code := BankSelector.code) hbank]
      · cases h
    | commit => exact reads_of_commitOfPayload h
    | discard =>
      simp only at h
      split at h <;> cases h
      rename_i payload
      exact ⟨rfl, rfl, payload.symm⟩
    | setBranch =>
      simp only at h
      split at h
      · rename_i payload
        simp only [Option.bind_eq_bind, Option.bind_eq_some_iff] at h
        obtain ⟨b, hb, c, hc, hr⟩ := h
        cases hr
        obtain ⟨bytes, range⟩ := bytes_of_configOfBytes hc
        refine ⟨rfl, range, ?_⟩
        rw [payload, Request.payload, ofCount_of_branchOfCode hb, bytes]
      · cases h
    | getBranch =>
      simp only at h
      split at h
      · rename_i payload
        simp only [Option.bind_eq_bind, Option.bind_eq_some_iff] at h
        obtain ⟨b, hb, hr⟩ := h
        cases hr
        refine ⟨rfl, rfl, ?_⟩
        rw [payload, Request.payload, ofCount_of_branchOfCode hb]
      · cases h
    | setArbiter =>
      simp only [Option.bind_eq_bind, Option.bind_eq_some_iff] at h
      obtain ⟨c, hc, hr⟩ := h
      cases hr
      obtain ⟨bytes, legal⟩ := bytes_of_arbiterOfBytes hc
      exact ⟨rfl, legal, bytes⟩
    | reset =>
      simp only at h
      split at h
      · rename_i payload
        simp only [Option.bind_eq_bind, Option.bind_eq_some_iff] at h
        obtain ⟨scope, hscope, hr⟩ := h
        cases hr
        refine ⟨rfl, rfl, ?_⟩
        rw [payload, Request.payload, code_of_find (code := ResetScope.code) hscope]
      · cases h

/-- Settles O13: by the readings of the single fields, in both directions. -/
theorem requestsAndTheirFramesCorrespond : Obligations.RequestsAndTheirFramesCorrespond := by
  refine ⟨fun r tag h => ⟨Frame.request_frame tag h, Request.payload_length_le h⟩, fun fr r h => ?_⟩
  obtain ⟨k, kind, reads⟩ := Frame.reads_of_request h
  refine ⟨reads.wellFormed, ?_⟩
  rw [Request.frame, reads.kind, reads.payload, ← kind]

end Sys2Proof.Machine
end

section
/-! PROOFS. What admission leaves of the trunk, of the route table and of the arbiter's configuration, and that every step keeps
the active bank valid and changes it only by a commit or a reset. -/

namespace Sys2Proof.Machine

/-! ### The trunk under the execution of a request -/

/-- The supply, the lines, the receiver, TTXD, the queue of commands and the arbiter's choices are left alone. -/
structure State.KeepsTrunk (s t : State) : Prop where
  supply : t.supply = s.supply
  trxd : t.trxd = s.trxd
  straps : t.straps = s.straps
  rx : t.rx = s.rx
  tx : t.tx = s.tx
  pending : t.pending = s.pending
  decisionMode : t.arbiter.decisionMode = s.arbiter.decisionMode
  roundSet : t.arbiter.roundSet = s.arbiter.roundSet
  grant : t.arbiter.grant = s.arbiter.grant

theorem State.KeepsTrunk.trans {s t u : State} (h : s.KeepsTrunk t) (k : t.KeepsTrunk u) : s.KeepsTrunk u :=
  ⟨k.supply.trans h.supply, k.trxd.trans h.trxd, k.straps.trans h.straps, k.rx.trans h.rx, k.tx.trans h.tx,
    k.pending.trans h.pending, k.decisionMode.trans h.decisionMode, k.roundSet.trans h.roundSet, k.grant.trans h.grant⟩

theorem State.KeepsTrunk.refl (s : State) : s.KeepsTrunk s := ⟨rfl, rfl, rfl, rfl, rfl, rfl, rfl, rfl, rfl⟩

theorem State.OnlyWork.keepsTrunk {s t : State} (h : s.OnlyWork t) : s.KeepsTrunk t :=
  ⟨h.supply, h.trxd, h.straps, h.rx, h.tx, h.pending, h.decisionMode, h.roundSet, h.grant⟩

theorem State.setRoutes_keepsTrunk (s : State) (r : RouteUnit) : s.KeepsTrunk (s.setRoutes r) :=
  ⟨rfl, rfl, rfl, rfl, rfl, rfl, rfl, rfl, rfl⟩

theorem State.completeEntry_onlyWork (s : State) (i : EntryId) (st : Status) (r : Reply) :
    s.OnlyWork (s.completeEntry i st r) := State.onlyWork_closed.completeEntry s i st r

theorem State.completeEntry_keepsTrunk (s : State) (i : EntryId) (st : Status) (r : Reply) :
    s.KeepsTrunk (s.completeEntry i st r) := (s.completeEntry_onlyWork i st r).keepsTrunk

theorem State.cancelTarget_onlyWork (s : State) (j : EntryId) :
    s.OnlyWork (s.cancelTarget j).1 ∨
      (s.setRoutes { s.routes with pendingCommit := none }).OnlyWork (s.cancelTarget j).1 := by
  have h := State.onlyWork_closed
  unfold State.cancelTarget
  split
  · exact .inl (h.trans (h.foldl (h.cancelMember j) _ _) (h.settle _ _))
  · exact .inl (h.trans (h.foldl (h.cancelMember j) _ _) (h.settle _ _))
  · exact .inl (h.trans (h.trans (h.removeTimer _ _) (h.dropMember _ _)) (h.settle _ _))
  · exact .inr (h.completeEntry _ _ _ _)
  all_goals exact .inl (h.refl s)

/-- The entry allocated apart, a request acts on work, or on the route table, the arbiter's configuration or the halt flag. -/
theorem State.execute_keepsTrunk (s : State) (i : EntryId) (r : Request) : s.KeepsTrunk (s.execute i r) := by
  have h := State.onlyWork_closed
  cases r with
  | read a n => exact (h.resolve s i _ _ _ _ _).keepsTrunk
  | write p a d => exact (h.resolve s i _ _ _ _ _).keepsTrunk
  | watch a iv li mask pat => exact (h.resolve s i _ _ _ _ _).keepsTrunk
  | cancel tag =>
    simp only [State.execute, State.cancel]
    split
    · exact s.completeEntry_keepsTrunk i _ _
    · rename_i j _
      refine .trans ?_ (State.completeEntry_keepsTrunk _ i _ _)
      rcases s.cancelTarget_onlyWork j with work | work
      · exact work.keepsTrunk
      · exact (s.setRoutes_keepsTrunk _).trans work.keepsTrunk
  | stageRoute slot record =>
    simp only [State.execute, State.stage]
    split
    · exact s.completeEntry_keepsTrunk i _ _
    · exact (s.setRoutes_keepsTrunk _).trans (State.completeEntry_keepsTrunk _ i _ _)
  | commit g m t =>
    simp only [State.execute, State.commit]
    repeat' split
    · exact s.completeEntry_keepsTrunk i _ _
    · exact s.completeEntry_keepsTrunk i _ _
    · exact s.completeEntry_keepsTrunk i _ _
    · exact (s.setRoutes_keepsTrunk _).trans (State.completeEntry_keepsTrunk _ i _ _)
    · exact (s.setRoutes_keepsTrunk _).trans (State.completeEntry_keepsTrunk _ i _ _)
    · exact (h.setEntry s i _).keepsTrunk.trans (State.setRoutes_keepsTrunk _ _)
  | discard =>
    simp only [State.execute, State.discardStaging]
    split
    · exact s.completeEntry_keepsTrunk i _ _
    · exact (s.setRoutes_keepsTrunk _).trans (State.completeEntry_keepsTrunk _ i _ _)
  | setBranch b c => exact (h.setBranch s i b c).keepsTrunk
  | setArbiter c =>
    have configured : s.KeepsTrunk (s.setArbiter { s.arbiter with config := c }) :=
      ⟨rfl, rfl, rfl, rfl, rfl, rfl, rfl, rfl, rfl⟩
    exact configured.trans (State.completeEntry_keepsTrunk _ i _ _)
  | reset scope =>
    have halted : s.KeepsTrunk { s with halt := true } := ⟨rfl, rfl, rfl, rfl, rfl, rfl, rfl, rfl, rfl⟩
    exact (halted.trans (h.setEntry { s with halt := true } i { s.entry i with scope := some scope }).keepsTrunk).trans
      (State.completeEntry_keepsTrunk _ i _ _)
  | identify => exact s.completeEntry_keepsTrunk i _ _
  | getStatus => exact s.completeEntry_keepsTrunk i _ _
  | readRoute bank slot => exact s.completeEntry_keepsTrunk i _ _
  | getBranch b => exact s.completeEntry_keepsTrunk i _ _

theorem State.allocate_onlyWork (s : State) (i : EntryId) (fr : Frame) : s.OnlyWork (s.allocate i fr) := by
  constructor <;> rfl

/-- What the checks do to a taken frame: its tag is a duplicate, nothing is FREE, it is malformed, or it is executed. -/
inductive State.Checked (s : State) (fr : Frame) : State → Prop
  | duplicate (h : s.tagInUse fr.tag = true) : s.Checked fr (s.hand (.duplicateTag fr.tag fr.kind))
  | full (h : s.lowestFree = none) : s.Checked fr s
  | malformed {i : EntryId} (fresh : s.tagInUse fr.tag = false) (free : s.lowestFree = some i) (hr : fr.request = none) :
      s.Checked fr ((s.allocate i fr).refuse i .badRequest)
  | executed {i : EntryId} {r : Request} (fresh : s.tagInUse fr.tag = false) (free : s.lowestFree = some i)
      (hr : fr.request = some r) : s.Checked fr ((s.allocate i fr).execute i r)

theorem State.runChecks_checked (s : State) (fr : Frame) : s.Checked fr (s.runChecks fr) := by
  unfold State.runChecks
  split
  · rename_i used
    exact .duplicate used
  · rename_i fresh
    split
    · rename_i full
      exact .full full
    · rename_i i free
      split
      · rename_i malformed
        exact .malformed (by simpa using fresh) free malformed
      · rename_i r request
        exact .executed (by simpa using fresh) free request

theorem State.runChecks_keepsTrunk (s : State) (fr : Frame) : s.KeepsTrunk (s.runChecks fr) := by
  have h := State.onlyWork_closed
  have checked := s.runChecks_checked fr
  generalize s.runChecks fr = t at checked
  cases checked with
  | duplicate => exact (h.hand s _).keepsTrunk
  | full => exact .refl s
  | malformed => exact ((s.allocate_onlyWork _ fr).keepsTrunk).trans (h.refuse _ _ _).keepsTrunk
  | executed => exact ((s.allocate_onlyWork _ fr).keepsTrunk).trans (State.execute_keepsTrunk _ _ _)

/-- Taking a head is what its checks do, with the frame gone from the queue and a CREDIT handed before or after it. -/
theorem State.takeHead_keeps {P : State → Prop} (s : State) (fr : Frame) (rest : List Frame)
    (checked : ∀ u : State, (∃ n q, u = { s.headGone fr rest with freeCount := n, notices := q }) → P (u.runChecks fr))
    (credited : ∀ u : State, P u → P (u.hand .credit)) : P (s.takeHead fr rest) := by
  unfold State.takeHead
  simp only
  repeat' split
  · exact checked _ ⟨_, _, rfl⟩
  · exact credited _ (checked _ ⟨_, _, rfl⟩)
  · exact checked _ ⟨_, _, rfl⟩

theorem State.takeHead_keepsTrunk (s : State) (fr : Frame) (rest : List Frame) :
    (s.headGone fr rest).KeepsTrunk (s.takeHead fr rest) := by
  refine s.takeHead_keeps fr rest ?_ fun u h => h.trans (State.onlyWork_closed.hand u _).keepsTrunk
  rintro u ⟨n, q, rfl⟩
  refine State.KeepsTrunk.trans ?_ (State.runChecks_keepsTrunk _ fr)
  exact ⟨rfl, rfl, rfl, rfl, rfl, rfl, rfl, rfl, rfl⟩

/-! ### The route table -/

/-- What a request, taken while no commit waits or not, can do to the route table (R11, R12, R15 to R17, R22, R127). A commit is
performed or begins to wait only where `commits` says so. -/
inductive RouteUnit.Edit (r : RouteUnit) (commits : Prop) : RouteUnit → Prop
  | same : r.Edit commits r
  | staged (bank : Bank) (h : r.pendingCommit = none) : r.Edit commits { r with staging := bank }
  | performed (h : r.pendingCommit = none) (valid : r.staging.valid = true) (c : commits) : r.Edit commits r.perform
  | waits (p : PendingCommit) (h : r.pendingCommit = none) (valid : r.staging.valid = true) (c : commits) :
      r.Edit commits { r with pendingCommit := some p }
  | ended : r.Edit commits { r with pendingCommit := none }

theorem RouteUnit.Edit.sound {r r' : RouteUnit} {commits : Prop} (e : r.Edit commits r') (h : r.Sound) : r'.Sound := by
  obtain ⟨active, waiting⟩ := h
  cases e with
  | same => exact ⟨active, waiting⟩
  | staged bank none => exact ⟨active, fun some => by simp [none] at some⟩
  | performed _ valid _ => exact ⟨valid, fun _ => valid⟩
  | waits p _ valid _ => exact ⟨active, fun _ => valid⟩
  | ended => exact ⟨active, fun some => by simp at some⟩

theorem RouteUnit.Edit.active {r r' : RouteUnit} {commits : Prop} (e : r.Edit commits r') (h : ¬ commits) :
    r'.active = r.active ∧ r'.generation = r.generation := by
  cases e with
  | performed _ _ c => exact absurd c h
  | _ => exact ⟨rfl, rfl⟩

theorem RouteUnit.Edit.pendingCommit {r r' : RouteUnit} {commits : Prop} (e : r.Edit commits r') (h : ¬ commits)
    (hp : r.pendingCommit = none) : r'.pendingCommit = none := by
  cases e with
  | same => exact hp
  | staged => exact hp
  | performed _ _ c => exact absurd c h
  | waits _ _ _ c => exact absurd c h
  | ended => rfl

theorem Bank.valid_of_validate {bank : Bank} (h : bank.validate = none) : bank.valid = true := by simp [Bank.valid, h]

@[simp] theorem State.completeEntry_routes (s : State) (i : EntryId) (st : Status) (r : Reply) :
    (s.completeEntry i st r).routes = s.routes := rfl

theorem State.execute_edit (s : State) (i : EntryId) (r : Request) :
    s.routes.Edit (r.kind = .commit) (s.execute i r).routes := by
  have h := State.onlyWork_closed
  have same {t : State} (work : s.OnlyWork t) : s.routes.Edit (r.kind = .commit) t.routes := by
    rw [work.routes]
    exact .same
  cases r with
  | read a n => exact same (h.resolve s i _ _ _ _ _)
  | write p a d => exact same (h.resolve s i _ _ _ _ _)
  | watch a iv li mask pat => exact same (h.resolve s i _ _ _ _ _)
  | setBranch b c => exact same (h.setBranch s i b c)
  | cancel tag =>
    simp only [State.execute, State.cancel]
    split
    · exact .same
    · rename_i j _
      rw [State.answer, State.completeEntry_routes]
      rcases s.cancelTarget_onlyWork j with work | work
      · exact same work
      · rw [work.routes]
        exact .ended
  | stageRoute slot record =>
    simp only [State.execute, State.stage]
    split
    · exact .same
    · rename_i none
      exact .staged _ (by simpa using none)
  | discard =>
    simp only [State.execute, State.discardStaging]
    split
    · exact .same
    · rename_i none
      exact .staged _ (by simpa using none)
  | commit g m t =>
    simp only [State.execute, State.commit]
    split
    · exact .same
    · rename_i none
      have none : s.routes.pendingCommit = Option.none := by simpa using none
      split
      · exact .same
      · split
        · exact .same
        · rename_i valid
          have valid := Bank.valid_of_validate valid
          repeat' split
          · exact .performed none valid rfl
          · exact .performed none valid rfl
          · exact .waits _ none valid rfl
  | _ => exact .same

theorem State.runChecks_edit (s : State) (fr : Frame) :
    s.routes.Edit (fr.kind = Kind.commit.code) (s.runChecks fr).routes := by
  have checked := s.runChecks_checked fr
  generalize s.runChecks fr = t at checked
  cases checked with
  | duplicate => exact .same
  | full => exact .same
  | malformed =>
    rename_i i _ _ _
    rw [(State.onlyWork_closed.refuse (s.allocate i fr) i .badRequest).routes]
    exact .same
  | @executed i r _ _ request =>
    obtain ⟨k, kind, reads⟩ := Frame.reads_of_request request
    have edit := (s.allocate i fr).execute_edit i r
    rw [reads.kind] at edit
    have same : (k = .commit) = (fr.kind = Kind.commit.code) := by
      rw [kind, ← Kind.ofCode_eq_some_iff, (Kind.ofCode_eq_some_iff k.code k).mpr rfl, Option.some_inj]
    exact same ▸ edit

theorem State.takeHead_edit (s : State) (fr : Frame) (rest : List Frame) :
    s.routes.Edit (fr.kind = Kind.commit.code) (s.takeHead fr rest).routes := by
  refine s.takeHead_keeps (P := fun t => s.routes.Edit _ t.routes) fr rest ?_ fun _ => id
  rintro u ⟨n, q, rfl⟩
  exact State.runChecks_edit { s.headGone fr rest with freeCount := n, notices := q } fr

/-- What the taking of a head can do to the route table: a commit is performed only where a COMMIT stands at the head. -/
theorem State.take_edit (s : State) (names : Frame → Bool) :
    s.routes.Edit (∃ fr ∈ s.rx.inbound, names fr = true ∧ fr.kind = Kind.commit.code) (s.take names).routes := by
  rcases s.take_cases names with same | ⟨fr, rest, head, named, -, taken⟩
  · rw [same]
    exact .same
  · rw [taken]
    have edit := s.takeHead_edit fr rest
    generalize (s.takeHead fr rest).routes = r at edit
    cases edit with
    | same => exact .same
    | staged bank none => exact .staged bank none
    | performed none valid c => exact .performed none valid ⟨fr, by simp [head], named, c⟩
    | waits p none valid c => exact .waits p none valid ⟨fr, by simp [head], named, c⟩
    | ended => exact .ended

/-- A drain performs the pending commit, or changes nothing. -/
theorem State.drain_routes (s : State) :
    s.drain = s ∨ (s.routes.pendingCommit.isSome = true ∧
      s.drain.routes = { s.routes.perform with pendingCommit := none }) := by
  unfold State.drain
  split
  · rename_i due
    split
    · exact .inl rfl
    · rename_i p pending
      refine .inr ⟨by simp [pending], ?_⟩
      simp only
      split <;> rfl
  · exact .inl rfl

theorem State.expireQuiesce_edit (s : State) (commits : Prop) : s.routes.Edit commits s.expireQuiesce.routes := by
  unfold State.expireQuiesce
  split
  · exact .same
  · split
    · exact .same
    · simp only
      split <;> exact .ended

theorem State.drain_routesSound {s : State} (h : s.routes.Sound) : s.drain.routes.Sound := by
  rcases s.drain_routes with same | ⟨waits, drained⟩
  · rwa [same]
  · rw [drained]
    exact ⟨h.2 waits, fun some => by simp at some⟩

theorem State.beforeDecision_routesSound {s : State} (h : s.routes.Sound) : s.beforeDecision.routes.Sound := by
  unfold State.beforeDecision
  split
  · refine List.foldlRecOn (motive := fun t : State => t.routes.Sound) _ _ h fun t ht c _ => ?_
    cases c
    · exact State.drain_routesSound ht
    · exact (t.take_edit _).sound ht
  · exact h

theorem State.arbitrate_routes (s : State) {ready : Source → Bool}
    (hready : ∀ x, ready x = true → s.sourceReady x = true) : (s.arbitrate ready).routes = s.routes :=
  State.arbitrate_keeps (P := fun t => t.routes = s.routes) hready (fun _ _ => rfl)
    (fun src _ _ _ => (State.beginFrame_begins _ src).routes)

@[simp] theorem State.freeEntry_routes (s : State) (i : EntryId) : (s.freeEntry i).routes = s.routes :=
  (State.onlyWork_closed.freeEntry s i).routes

theorem Bank.reset_valid : Bank.reset.valid = true := by
  refine (Bank.valid_iff _).mpr fun i => ?_
  simp [Bank.slotFailure, Bank.reset, Route.reset]

theorem RouteUnit.reset_sound : RouteUnit.reset.Sound := ⟨Bank.reset_valid, fun some => by simp [RouteUnit.reset] at some⟩

theorem State.Event.routesSound {s t : State} {c : Instr} (h : s.routes.Sound) (e : s.Event c t) : t.routes.Sound := by
  cases e with
  | link e =>
    rw [e.onlyLink.same]
    exact h
  | engine b e => rwa [(State.onlyWork_closed.engineEvent e).routes]
  | expireWatch i => rwa [(State.onlyWork_closed.expireWatch s i).routes]
  | take names _ => exact (s.take_edit names).sound h
  | drain => exact State.drain_routesSound h
  | expireQuiesce => exact (s.expireQuiesce_edit False).sound h
  | endFrame straps =>
    rcases s.endFrame_cases straps with same | ⟨frame, u, -, -, released, ends⟩
    · rwa [same]
    · rw [ends, State.arbitrate_routes u fun _ => id]
      generalize frame.what = what at released
      cases released with
      | notice => exact h
      | @reset i scope _ =>
        cases scope
        · exact ⟨h.1, fun some => by simp [State.takeEffect, State.resetSoft, RouteUnit.afterSoft] at some⟩
        · exact RouteUnit.reset_sound
      | response _ => exact State.beforeDecision_routesSound (by simpa using h)
  | grantIdle =>
    rcases s.grantIdle_cases with same | ⟨n, ready, -, hready, granted⟩
    · rwa [same]
    · rw [granted, State.arbitrate_routes { s with freeCount := n } hready]
      exact h
  | supply e =>
    rcases e.cases with rfl | ⟨sup, rfl, -⟩ | ⟨sup, rfl, -⟩ | ⟨straps, cause, rfl⟩
    · exact h
    · exact h
    · exact h
    · exact RouteUnit.reset_sound

/-- Settles O56: the active bank becomes the staging bank only when this has just been found valid, or has waited since. -/
theorem stepKeepsTheActiveBankValid : Obligations.StepKeepsTheActiveBankValid := fun _ _ =>
  step_keeps (P := fun s => s.routes.Sound) (fun _ _ => id)
    (fun s h => by
      rcases s.tick_cases with same | ⟨-, elapsed⟩
      · rwa [same]
      · rw [elapsed]
        exact ⟨h.1, fun some => h.2 (by simpa [State.elapse] using some)⟩)
    (fun _ _ _ => State.Event.routesSound)

end Sys2Proof.Machine
end

section
/-! PROOFS. The route table (Section 1): which commands change the active bank, where the targets of a lookup lie, and what
validation reports. -/

namespace Sys2Proof.Machine

/-! ### Who changes the active bank -/

/-- No command but the two COMMITs takes a COMMIT frame. -/
theorem kind_ne_commit_of_framesTaken {c : Instr} {names : Frame → Bool} {fr : Frame} (h : framesTaken c = some names)
    (immediate : c ≠ .commitImmediate) (quiesce : c ≠ .commitQuiesce) (named : names fr = true) :
    fr.kind ≠ Kind.commit.code := by
  intro kind
  have commit : Kind.ofCode fr.kind = some .commit := (Kind.ofCode_eq_some_iff _ _).mpr kind
  cases c <;> simp only [framesTaken, Option.some.injEq, reduceCtorEq] at h <;> subst h <;>
    simp_all [Frame.isKind, Frame.isKindExcept]

/-- No frame of the inbound queue is a COMMIT and none is pending: what is taken before a decision performs none. -/
structure State.Quiet (s t : State) : Prop where
  pendingCommit : t.routes.pendingCommit = none
  inbound : ∀ fr ∈ t.rx.inbound, fr.kind ≠ Kind.commit.code
  active : t.routes.active = s.routes.active
  generation : t.routes.generation = s.routes.generation

theorem State.Quiet.take {s t : State} (h : s.Quiet t) (names : Frame → Bool) : s.Quiet (t.take names) := by
  have edit := t.take_edit names
  have none : ¬ ∃ fr ∈ t.rx.inbound, names fr = true ∧ fr.kind = Kind.commit.code := by
    rintro ⟨fr, mem, -, kind⟩
    exact h.inbound fr mem kind
  obtain ⟨active, generation⟩ := edit.active none
  refine ⟨edit.pendingCommit none h.pendingCommit, ?_, active.trans h.active, generation.trans h.generation⟩
  rcases t.take_cases names with same | ⟨fr, rest, head, -, -, taken⟩
  · rw [same]
    exact h.inbound
  · intro x hx
    rw [taken, (t.takeHead_keepsTrunk fr rest).rx] at hx
    exact h.inbound x (head ▸ List.mem_cons_of_mem fr hx)

theorem State.Quiet.drain {s t : State} (h : s.Quiet t) : s.Quiet t.drain := by
  rcases t.drain_routes with same | ⟨waits, -⟩
  · rwa [same]
  · simp [h.pendingCommit] at waits

theorem State.beforeDecision_quiet {s : State} (h : s.Quiet s) : s.Quiet s.beforeDecision := by
  unfold State.beforeDecision
  split
  · refine List.foldlRecOn (motive := s.Quiet) _ _ ?_ fun t ht c _ => ?_
    · exact ⟨h.pendingCommit, h.inbound, rfl, rfl⟩
    · cases c
      · exact ht.drain
      · exact ht.take _
  · exact h

/-- Settles O5: of the events only the excluded ones perform a commit or reset the route table. -/
theorem onlyCommitsAndResetsChangeTheActiveBank : Obligations.OnlyCommitsAndResetsChangeTheActiveBank := by
  intro c s t h immediate quiesce drain supply frameEnd
  have same {u : State} (hu : u.routes = s.routes) :
      u.routes.active = s.routes.active ∧ u.routes.generation = s.routes.generation := by
    rw [hu]
    exact ⟨rfl, rfl⟩
  cases event_of_exec h with
  | link e => exact same (by rw [e.onlyLink.same])
  | engine b e => exact same (State.onlyWork_closed.engineEvent e).routes
  | expireWatch i => exact same (State.onlyWork_closed.expireWatch s i).routes
  | take names hc =>
    refine (s.take_edit names).active ?_
    rintro ⟨fr, -, named, kind⟩
    exact kind_ne_commit_of_framesTaken hc immediate quiesce named kind
  | drain => exact absurd rfl drain
  | expireQuiesce => exact (s.expireQuiesce_edit False).active id
  | endFrame straps =>
    rcases s.endFrame_cases straps with unchanged | ⟨frame, u, -, onLine, released, ends⟩
    · exact same (by rw [unchanged])
    · rw [ends, State.arbitrate_routes u fun _ => id]
      obtain ⟨what, bytes⟩ := frame
      cases released with
      | notice => exact ⟨rfl, rfl⟩
      | @reset i scope hscope =>
        obtain ⟨full, -⟩ := frameEnd straps i bytes rfl onLine
        cases scope with
        | soft => exact ⟨rfl, rfl⟩
        | full => exact absurd hscope full
      | @response i hscope =>
        obtain ⟨-, none⟩ := frameEnd straps i bytes rfl onLine
        obtain ⟨pending, inbound⟩ := none hscope
        have freed : (({ s with tx := Option.none } : State).freeEntry i).routes = s.routes :=
          State.freeEntry_routes _ i
        have rx : (({ s with tx := Option.none } : State).freeEntry i).rx = s.rx :=
          (State.onlyWork_closed.freeEntry _ i).rx
        have quiet := State.beforeDecision_quiet (s := ({ s with tx := Option.none } : State).freeEntry i)
          ⟨by rw [freed, pending], by rw [rx]; exact inbound, rfl, rfl⟩
        rw [quiet.active, quiet.generation, freed]
        exact ⟨rfl, rfl⟩
  | grantIdle =>
    rcases s.grantIdle_cases with unchanged | ⟨n, ready, -, hready, granted⟩
    · exact same (by rw [unchanged])
    · exact same (by rw [granted, State.arbitrate_routes { s with freeCount := n } hready])
  | supply e =>
    cases e with
    | failPower => exact ⟨rfl, rfl⟩
    | stabilizePower straps => exact absurd rfl (supply straps).1
    | assertPin => exact ⟨rfl, rfl⟩
    | releasePin straps => exact absurd rfl (supply straps).2

/-! ### The targets of a lookup -/

theorem Bank.slot_conditions {bank : Bank} (hv : bank.valid = true) {i : SlotId} (h : (Table.get bank i).kind ≠ .unused) :
    (Table.get bank i).base.toNat ≤ (Table.get bank i).limit.toNat ∧
      (Table.get bank i).limit.toNat - (Table.get bank i).base.toNat ≤ 255 ∧
      bank.overlapping i = none ∧ (Table.get bank i).membersValid = true ∧
      (Table.get bank i).registersValid = true ∧ (Table.get bank i).rightsValid = true :=
  (bank.slotFailure_eq_none_iff i h).mp (bank.valid_iff.mp hv i)

theorem RouteMember.valid_iff (m : RouteMember) :
    m.valid = true ↔ (1 ≤ m.device.toNat ∧ m.device.toNat ≤ 30) ∧ m.branch.toNat ≤ 3 := by
  simp [RouteMember.valid]

theorem Route.membersValid_iff (r : Route) :
    r.membersValid = true ↔
      r.countFits = true ∧ (∀ m ∈ r.members, m.valid = true) ∧
        (r.kind = .group → (r.members.map (·.branch)).Nodup) := by
  simp [Route.membersValid, and_assoc, imp_iff_not_or]

theorem Route.registersValid_iff (r : Route) :
    r.registersValid = true ↔ ∀ m ∈ r.members, m.base.toNat + (r.limit.toNat - r.base.toNat) ≤ 255 := by
  simp [Route.registersValid]

/-- The slot that resolves a request is a slot of the bank, not UNUSED, whose window holds the first and the last address. -/
theorem Bank.lookup_ok {bank : Bank} {kind : Kind} {a : Half} {n : Nat} {r : Route} (h : bank.lookup kind a n = .ok r) :
    ∃ i : SlotId, Table.get bank i = r ∧ r.kind ≠ .unused ∧ r.kind ≠ .deny ∧ r.holds a.toNat = true ∧
      r.holds (a.toNat + n - 1) = true ∧ r.allows kind = true := by
  unfold Bank.lookup at h
  split at h
  · cases h
  · rename_i q found
    split at h
    · cases h
    · rename_i deny
      split at h
      · cases h
      · rename_i last
        split at h
        · cases h
        · rename_i allowed
          cases h
          obtain ⟨i, slot, used, first⟩ := Bank.find_some found
          exact ⟨i, slot, used, deny, first, by simpa using last, by simpa using allowed⟩

/-- Settles O15: the windows of a valid bank span at most 255 and keep every register of their members within a byte. -/
theorem lookupTargetsStayInRange : Obligations.LookupTargetsStayInRange := by
  intro bank kind a n r m hv hn hr hm
  obtain ⟨i, rfl, used, -, first, last, -⟩ := Bank.lookup_ok hr
  obtain ⟨-, -, -, members, registers, -⟩ := Bank.slot_conditions hv used
  obtain ⟨-, targets, -⟩ := (Route.membersValid_iff _).mp members
  obtain ⟨⟨low, high⟩, branch⟩ := (RouteMember.valid_iff m).mp (targets m hm)
  have register := (Route.registersValid_iff _).mp registers m hm
  obtain ⟨above, below⟩ := (Route.holds_iff _ _).mp first
  obtain ⟨-, lastBelow⟩ := (Route.holds_iff _ _).mp last
  have offset : ((Table.get bank i).target a m).register.toNat =
      m.base.toNat + (a.toNat - (Table.get bank i).base.toNat) := by
    simp only [Route.target, BitVec.toNat_add, BitVec.toNat_ofNat]
    omega
  refine ⟨?_, rfl, low, high, offset, by omega⟩
  simp only [Route.target, Fin.val_ofNat]
  omega

/-! ### What validation reports -/

theorem Route.overlaps_iff (r q : Route) :
    r.overlaps q = true ↔ r.base.toNat ≤ q.limit.toNat ∧ q.base.toNat ≤ r.limit.toNat := by
  simp [Route.overlaps]

/-- Two windows in order share an address exactly when each begins before the other ends. -/
theorem Route.overlaps_iff_exists {r q : Route} (hr : r.base.toNat ≤ r.limit.toNat) (hq : q.base.toNat ≤ q.limit.toNat) :
    q.overlaps r = true ↔
      ∃ a, r.base.toNat ≤ a ∧ a ≤ r.limit.toNat ∧ q.base.toNat ≤ a ∧ a ≤ q.limit.toNat := by
  rw [Route.overlaps_iff]
  constructor
  · rintro ⟨_, _⟩
    exact ⟨max r.base.toNat q.base.toNat, by omega⟩
  · rintro ⟨a, _⟩
    omega

theorem ite_some_eq_some_iff {α : Type} {c : Prop} [Decidable c] {x y : α} :
    (if c then some x else none) = some y ↔ c ∧ x = y := by
  by_cases h : c <;> simp [h]

/-- The first place of a table that gives something. -/
theorem findSome?_finRange_eq_some_iff {α : Type} : ∀ {n : Nat} {f : Fin n → Option α} {x : α},
    (List.finRange n).findSome? f = some x ↔ ∃ i, f i = some x ∧ ∀ j < i, f j = none
  | 0, f, x => by simp
  | n + 1, f, x => by
    rw [List.finRange_succ, List.findSome?_cons]
    cases h0 : f 0 with
    | some y =>
      constructor
      · rintro ⟨⟩
        exact ⟨0, h0, fun j hj => absurd hj (Fin.not_lt_zero j)⟩
      · rintro ⟨i, hi, before⟩
        rcases Fin.eq_zero_or_eq_succ i with rfl | ⟨k, rfl⟩
        · exact h0.symm.trans hi
        · simp [before 0 (Fin.succ_pos k)] at h0
    | none =>
      simp only [List.findSome?_map, findSome?_finRange_eq_some_iff, Function.comp_apply]
      constructor
      · rintro ⟨i, hi, before⟩
        refine ⟨i.succ, hi, fun j hj => ?_⟩
        rcases Fin.eq_zero_or_eq_succ j with rfl | ⟨k, rfl⟩
        · exact h0
        · exact before k (Fin.succ_lt_succ_iff.mp hj)
      · rintro ⟨i, hi, before⟩
        rcases Fin.eq_zero_or_eq_succ i with rfl | ⟨k, rfl⟩
        · simp [h0] at hi
        · exact ⟨k, hi, fun j hj => before j.succ (Fin.succ_lt_succ_iff.mpr hj)⟩

/-- The first place of a table that passes a test. -/
theorem find?_finRange_eq_some_iff {n : Nat} {p : Fin n → Bool} {i : Fin n} :
    (List.finRange n).find? p = some i ↔ p i = true ∧ ∀ j < i, p j = false := by
  have same : (List.finRange n).find? p = (List.finRange n).findSome? (fun j => if p j then some j else none) := by
    induction List.finRange n with
    | nil => rfl
    | cons j l ih => cases h : p j <;> simp [h, ih]
  rw [same, findSome?_finRange_eq_some_iff]
  simp

section
variable {bank : Bank} {i : SlotId}

/-- The windows of the slots below a slot are in order. -/
def Bank.OrderedBelow (bank : Bank) (i : SlotId) : Prop :=
  ∀ j < i, (Table.get bank j).kind ≠ .unused → (Table.get bank j).base.toNat ≤ (Table.get bank j).limit.toNat

theorem Bank.meets_iff (below : bank.OrderedBelow i) (used : (Table.get bank i).kind ≠ .unused)
    (ordered : (Table.get bank i).base.toNat ≤ (Table.get bank i).limit.toNat) (j : SlotId) :
    bank.Meets i j ↔
      (decide (j < i) && (Table.get bank j).kind != .unused && (Table.get bank j).overlaps (Table.get bank i)) = true := by
  simp only [Bank.Meets, Bool.and_eq_true, decide_eq_true_eq, bne_iff_ne]
  constructor
  · rintro ⟨lower, -, other, shared⟩
    exact ⟨⟨lower, other⟩, (Route.overlaps_iff_exists ordered (below j lower other)).mpr shared⟩
  · rintro ⟨⟨lower, other⟩, overlaps⟩
    exact ⟨lower, used, other, (Route.overlaps_iff_exists ordered (below j lower other)).mp overlaps⟩

theorem Bank.overlapping_eq_some (below : bank.OrderedBelow i) (used : (Table.get bank i).kind ≠ .unused)
    (ordered : (Table.get bank i).base.toNat ≤ (Table.get bank i).limit.toNat) {j : SlotId}
    (h : bank.overlapping i = some j) : bank.Meets i j ∧ ∀ k < j, ¬ bank.Meets i k := by
  obtain ⟨hj, first⟩ := find?_finRange_eq_some_iff.mp h
  refine ⟨(Bank.meets_iff below used ordered j).mpr hj, fun k hk meets => ?_⟩
  rw [Bank.meets_iff below used ordered, first k hk] at meets
  cases meets

theorem Bank.overlapping_eq_none (below : bank.OrderedBelow i) (used : (Table.get bank i).kind ≠ .unused)
    (ordered : (Table.get bank i).base.toNat ≤ (Table.get bank i).limit.toNat) (h : bank.overlapping i = none) :
    ¬ bank.Fails i .overlap := by
  rintro ⟨j, meets⟩
  rw [Bank.meets_iff below used ordered] at meets
  exact List.find?_eq_none.mp h j (List.mem_finRange j) meets

/-- MEMBER fails exactly where the model's test of a used slot fails. -/
theorem Bank.fails_member_iff (used : (Table.get bank i).kind ≠ .unused) :
    bank.Fails i .member ↔ (Table.get bank i).membersValid = false := by
  have targets : (∃ m ∈ (Table.get bank i).members, m.device.toNat < 1 ∨ 30 < m.device.toNat ∨ 3 < m.branch.toNat) ↔
      ¬ ∀ m ∈ (Table.get bank i).members, m.valid = true := by
    simp only [RouteMember.valid_iff, not_forall, not_and_or, not_le, exists_prop, or_assoc]
  rw [← Bool.not_eq_true, Route.membersValid_iff]
  simp only [Bank.Fails, targets, not_and_or]
  cases hk : (Table.get bank i).kind with
  | unused => exact absurd hk used
  | direct => simp [Route.countFits, hk]
  | group => simp [Route.countFits, hk, or_assoc, Nat.one_le_iff_ne_zero, imp_iff_not_or]
  | deny => simp [Route.countFits, hk]

theorem Bank.fails_rights_iff (bank : Bank) (i : SlotId) :
    bank.Fails i .rights ↔ (Table.get bank i).rightsValid = false := by
  have off (r : Rights) : r = ⟨false, false, false⟩ ↔ r.read = false ∧ r.write = false ∧ r.watch = false := by
    cases r
    simp
  simp only [Bank.Fails, ne_eq, off]
  cases hk : (Table.get bank i).kind with
  | unused => simp [Route.rightsValid, hk]
  | direct => simp [Route.rightsValid, hk]
  | group => simp [Route.rightsValid, hk, imp_iff_not_or]
  | deny =>
    simp only [Route.rightsValid, hk, Bool.and_eq_false_iff, Bool.not_eq_false', reduceCtorEq, false_and, true_and,
      false_or, not_and_or, Bool.not_eq_false, or_assoc]

theorem Bank.fails_register_iff (used : (Table.get bank i).kind ≠ .unused) :
    bank.Fails i .register ↔ (Table.get bank i).registersValid = false := by
  rw [← Bool.not_eq_true, Route.registersValid_iff]
  simp [Bank.Fails, used]

/-- What validation reports of a slot (R9): the first condition that fails, and for OVERLAP the lowest slot met. -/
structure Bank.Reports (bank : Bank) (i : SlotId) (reason : ValidityReason) (other : Option SlotId) : Prop where
  fails : bank.Fails i reason
  first : ∀ r : ValidityReason, r.code.toNat < reason.code.toNat → ¬ bank.Fails i r
  alone : reason ≠ .overlap → other = none
  met : reason = .overlap → ∃ k, other = some k ∧ bank.Meets i k ∧ ∀ j < k, ¬ bank.Meets i j

theorem Bank.Reports.of_ne_overlap {reason : ValidityReason} (ne : reason ≠ .overlap) (fails : bank.Fails i reason)
    (first : ∀ r : ValidityReason, r.code.toNat < reason.code.toNat → ¬ bank.Fails i r) : bank.Reports i reason none :=
  ⟨fails, first, fun _ => rfl, fun h => absurd h ne⟩

/-- The reasons with a code below `n`, one by one. -/
theorem ValidityReason.forall_code_lt {P : ValidityReason → Prop} {n : Nat} (order : P .order ∨ n ≤ 1)
    (size : P .size ∨ n ≤ 2) (overlap : P .overlap ∨ n ≤ 3) (member : P .member ∨ n ≤ 4) (register : P .register ∨ n ≤ 5)
    (rights : n ≤ 6) : ∀ r : ValidityReason, r.code.toNat < n → P r
  | .order, h => order.resolve_right (Nat.not_le.mpr h)
  | .size, h => size.resolve_right (Nat.not_le.mpr h)
  | .overlap, h => overlap.resolve_right (Nat.not_le.mpr h)
  | .member, h => member.resolve_right (Nat.not_le.mpr h)
  | .register, h => register.resolve_right (Nat.not_le.mpr h)
  | .rights, h => absurd rights (Nat.not_le.mpr h)

/-- An UNUSED slot fails MEMBER alone (R10). -/
theorem Bank.fails_unused (unused : (Table.get bank i).kind = .unused) {r : ValidityReason} (h : bank.Fails i r) :
    r = .member ∧ (Table.get bank i).members ≠ [] := by
  cases r with
  | order => exact absurd unused h.1
  | size => exact absurd unused h.1
  | overlap =>
    obtain ⟨j, -, used, -⟩ := h
    exact absurd unused used
  | member =>
    refine ⟨rfl, fun none => ?_⟩
    simp [Bank.Fails, unused, none] at h
  | register => exact absurd unused h.1
  | rights => simp [Bank.Fails, unused] at h

/-- The conditions are tested in the order of their codes, each once those before it hold. -/
theorem Bank.slotFailure_reports (below : bank.OrderedBelow i) {slot : SlotId} {reason : ValidityReason}
    {other : Option SlotId} (h : bank.slotFailure i = some ⟨slot, reason, other⟩) :
    slot = i ∧ bank.Reports i reason other := by
  by_cases unused : (Table.get bank i).kind = .unused
  · simp only [Bank.slotFailure, unused, if_true] at h
    split at h
    · cases h
    · rename_i members
      cases h
      refine ⟨rfl, .of_ne_overlap (by decide) (.inr (.inr (.inl ⟨.inr unused, by simpa using members⟩))) fun r lower fails => ?_⟩
      obtain ⟨rfl, -⟩ := Bank.fails_unused unused fails
      exact absurd lower (Nat.lt_irrefl _)
  · simp only [Bank.slotFailure, unused, if_false] at h
    by_cases order : (Table.get bank i).limit.toNat < (Table.get bank i).base.toNat
    · rw [if_pos order] at h
      cases h
      exact ⟨rfl, .of_ne_overlap (by decide) ⟨unused, order⟩
        (ValidityReason.forall_code_lt (.inr (by decide)) (.inr (by decide)) (.inr (by decide)) (.inr (by decide))
          (.inr (by decide)) (by decide))⟩
    rw [if_neg order] at h
    have notOrder : ¬ bank.Fails i .order := fun fails => order fails.2
    have ordered := not_lt.mp order
    by_cases size : 255 < (Table.get bank i).limit.toNat - (Table.get bank i).base.toNat
    · rw [if_pos size] at h
      cases h
      exact ⟨rfl, .of_ne_overlap (by decide) ⟨unused, by omega⟩
        (ValidityReason.forall_code_lt (.inl notOrder) (.inr (by decide)) (.inr (by decide)) (.inr (by decide))
          (.inr (by decide)) (by decide))⟩
    rw [if_neg size] at h
    have notSize : ¬ bank.Fails i .size := fun fails => size (by have := fails.2; omega)
    cases overlap : bank.overlapping i with
    | some j =>
      simp only [overlap] at h
      cases h
      obtain ⟨meets, lowest⟩ := Bank.overlapping_eq_some below unused ordered overlap
      exact ⟨rfl, ⟨j, meets⟩,
        ValidityReason.forall_code_lt (.inl notOrder) (.inl notSize) (.inr (by decide)) (.inr (by decide))
          (.inr (by decide)) (by decide),
        fun ne => absurd rfl ne, fun _ => ⟨j, rfl, meets, lowest⟩⟩
    | none =>
      simp only [overlap, Bool.not_eq_true'] at h
      have notOverlap := Bank.overlapping_eq_none below unused ordered overlap
      by_cases member : (Table.get bank i).membersValid = false
      · rw [if_pos member] at h
        cases h
        exact ⟨rfl, .of_ne_overlap (by decide) ((Bank.fails_member_iff unused).mpr member)
          (ValidityReason.forall_code_lt (.inl notOrder) (.inl notSize) (.inl notOverlap) (.inr (by decide))
            (.inr (by decide)) (by decide))⟩
      rw [if_neg member] at h
      have notMember := mt (Bank.fails_member_iff unused).mp member
      by_cases register : (Table.get bank i).registersValid = false
      · rw [if_pos register] at h
        cases h
        exact ⟨rfl, .of_ne_overlap (by decide) ((Bank.fails_register_iff unused).mpr register)
          (ValidityReason.forall_code_lt (.inl notOrder) (.inl notSize) (.inl notOverlap) (.inl notMember)
            (.inr (by decide)) (by decide))⟩
      rw [if_neg register] at h
      have notRegister := mt (Bank.fails_register_iff unused).mp register
      obtain ⟨rights, rest⟩ := ite_some_eq_some_iff.mp h
      cases rest
      exact ⟨rfl, .of_ne_overlap (by decide) ((bank.fails_rights_iff i).mpr rights)
        (ValidityReason.forall_code_lt (.inl notOrder) (.inl notSize) (.inl notOverlap) (.inl notMember)
          (.inl notRegister) (by decide))⟩

/-- A slot that no test refuses fails no condition. -/
theorem Bank.not_fails_of_slotFailure_eq_none (below : bank.OrderedBelow i) (h : bank.slotFailure i = none)
    (r : ValidityReason) : ¬ bank.Fails i r := by
  by_cases unused : (Table.get bank i).kind = .unused
  · intro fails
    obtain ⟨-, members⟩ := Bank.fails_unused unused fails
    simp [Bank.slotFailure, unused, members] at h
  · obtain ⟨ordered, size, overlap, members, registers, rights⟩ := (bank.slotFailure_eq_none_iff i unused).mp h
    cases r with
    | order => exact fun fails => absurd fails.2 (by omega)
    | size => exact fun fails => absurd fails.2 (by omega)
    | overlap => exact Bank.overlapping_eq_none below unused ordered overlap
    | member => simp [Bank.fails_member_iff unused, members]
    | register => simp [Bank.fails_register_iff unused, registers]
    | rights => simp [bank.fails_rights_iff, rights]

end

/-- What is reported of a slot is decided by the conditions. -/
theorem Bank.Reports.unique {bank : Bank} {i : SlotId} {r r' : ValidityReason} {o o' : Option SlotId}
    (h : bank.Reports i r o) (h' : bank.Reports i r' o') : r = r' ∧ o = o' := by
  have code : r.code.toNat = r'.code.toNat := by
    rcases Nat.lt_trichotomy r.code.toNat r'.code.toNat with lower | same | lower
    · exact absurd h.fails (h'.first r lower)
    · exact same
    · exact absurd h'.fails (h.first r' lower)
  have reason : r = r' := by
    revert code
    cases r <;> cases r' <;> decide
  subst reason
  refine ⟨rfl, ?_⟩
  by_cases overlap : r = .overlap
  · obtain ⟨k, rfl, meets, lowest⟩ := h.met overlap
    obtain ⟨k', rfl, meets', lowest'⟩ := h'.met overlap
    rcases lt_trichotomy k k' with lower | same | lower
    · exact absurd meets (lowest' k lower)
    · rw [same]
    · exact absurd meets' (lowest k' lower)
  · rw [h.alone overlap, h'.alone overlap]

/-- Where no slot below fails a condition, none is refused, and their windows are in order. -/
theorem Bank.slotFailure_eq_none_of_not_fails {bank : Bank} (i : SlotId) (h : ∀ j ≤ i, ∀ r, ¬ bank.Fails j r) :
    bank.slotFailure i = none := by
  have below : bank.OrderedBelow i := fun j hj used => by
    by_contra order
    exact h j hj.le .order ⟨used, by omega⟩
  cases hf : bank.slotFailure i with
  | none => rfl
  | some f =>
    obtain ⟨slot, reason, other⟩ := f
    exact absurd (Bank.slotFailure_reports below hf).2.fails (h i le_rfl reason)

theorem Bank.orderedBelow_of_slotFailure {bank : Bank} {i : SlotId} (h : ∀ j < i, bank.slotFailure j = none) :
    bank.OrderedBelow i := fun j hj used => ((bank.slotFailure_eq_none_iff j used).mp (h j hj)).1

/-- Validation reports the first slot that fails a condition, and of it the first condition (R9). -/
theorem Bank.validate_eq_some_iff {bank : Bank} (f : ValidityFailure) :
    bank.validate = some f ↔ bank.Reports f.slot f.reason f.other ∧ ∀ j < f.slot, ∀ r, ¬ bank.Fails j r := by
  rw [Bank.validate, findSome?_finRange_eq_some_iff]
  constructor
  · rintro ⟨i, hi, before⟩
    obtain ⟨slot, reason, other⟩ := f
    obtain ⟨rfl, reports⟩ := Bank.slotFailure_reports (Bank.orderedBelow_of_slotFailure before) hi
    exact ⟨reports, fun j hj => Bank.not_fails_of_slotFailure_eq_none
      (Bank.orderedBelow_of_slotFailure fun k hk => before k (hk.trans hj)) (before j hj)⟩
  · rintro ⟨reports, passed⟩
    obtain ⟨slot, reason, other⟩ := f
    have before : ∀ j < slot, bank.slotFailure j = none := fun j hj =>
      Bank.slotFailure_eq_none_of_not_fails j fun k hk => passed k (lt_of_le_of_lt hk hj)
    have below := Bank.orderedBelow_of_slotFailure before
    refine ⟨slot, ?_, before⟩
    cases hf : bank.slotFailure slot with
    | none => exact absurd reports.fails (Bank.not_fails_of_slotFailure_eq_none below hf reason)
    | some g =>
      obtain ⟨slot', reason', other'⟩ := g
      obtain ⟨rfl, reports'⟩ := Bank.slotFailure_reports below hf
      obtain ⟨rfl, rfl⟩ := reports'.unique reports
      rfl

/-- The conditions on one slot, spelled out (R9, R10). -/
theorem Bank.slot_conditions_iff (bank : Bank) (i : SlotId) (used : (Table.get bank i).kind ≠ .unused) :
    ((Table.get bank i).membersValid = true ∧ (Table.get bank i).registersValid = true ∧
        (Table.get bank i).rightsValid = true) ↔
      ((Table.get bank i).kind = .direct → (Table.get bank i).members.length = 1) ∧
      ((Table.get bank i).kind = .group → 1 ≤ (Table.get bank i).members.length ∧ (Table.get bank i).members.length ≤ 4 ∧
        ((Table.get bank i).members.map (·.branch)).Nodup ∧ (Table.get bank i).rights.read = false ∧
        (Table.get bank i).rights.watch = false) ∧
      ((Table.get bank i).kind = .deny →
        (Table.get bank i).members = [] ∧ (Table.get bank i).rights = ⟨false, false, false⟩) ∧
      (∀ m ∈ (Table.get bank i).members, 1 ≤ m.device.toNat ∧ m.device.toNat ≤ 30 ∧ m.branch.toNat ≤ 3 ∧
        m.base.toNat + ((Table.get bank i).limit.toNat - (Table.get bank i).base.toNat) ≤ 255) := by
  have split : (∀ m ∈ (Table.get bank i).members, 1 ≤ m.device.toNat ∧ m.device.toNat ≤ 30 ∧ m.branch.toNat ≤ 3 ∧
        m.base.toNat + ((Table.get bank i).limit.toNat - (Table.get bank i).base.toNat) ≤ 255) ↔
      (∀ m ∈ (Table.get bank i).members, m.valid = true) ∧ (Table.get bank i).registersValid = true := by
    rw [Route.registersValid_iff, ← forall₂_and]
    simp only [RouteMember.valid_iff, and_assoc]
  rw [split, Route.membersValid_iff]
  have off (r : Rights) : r = ⟨false, false, false⟩ ↔ r.read = false ∧ r.write = false ∧ r.watch = false := by
    cases r
    simp
  rw [off]
  cases hk : (Table.get bank i).kind with
  | unused => exact absurd hk used
  | direct => simp [Route.countFits, Route.rightsValid, hk, and_assoc]
  | group =>
    simp only [Route.countFits, Route.rightsValid, hk, decide_eq_true_eq, Bool.and_eq_true, Bool.not_eq_true',
      reduceCtorEq, false_implies, true_implies, true_and]
    tauto
  | deny =>
    simp only [Route.countFits, Route.rightsValid, hk, List.isEmpty_iff, Bool.and_eq_true, Bool.not_eq_true',
      reduceCtorEq, false_implies, true_implies, true_and]
    tauto

/-- Settles O16: no slot is refused exactly when each meets the conditions and no two windows meet; and what is reported is the
first refusal of the first slot refused. -/
theorem validBankMeetsTheConditions : Obligations.ValidBankMeetsTheConditions := by
  intro bank
  refine ⟨?_, by simp [Bank.valid], fun f => ?_⟩
  · rw [Bank.valid_iff]
    constructor
    · intro h
      refine ⟨fun i unused => ?_, fun i used => ?_, fun i j ne hi hj => ?_⟩
      · by_contra members
        simpa [Bank.slotFailure, unused, members] using h i
      · obtain ⟨ordered, size, -, conditions⟩ := (bank.slotFailure_eq_none_iff i used).mp (h i)
        exact ⟨ordered, size, (bank.slot_conditions_iff i used).mp conditions⟩
      · have apart (k l : SlotId) (lower : k < l) (hk : (Table.get bank k).kind ≠ .unused)
            (hl : (Table.get bank l).kind ≠ .unused) :
            (Table.get bank k).limit.toNat < (Table.get bank l).base.toNat ∨
              (Table.get bank l).limit.toNat < (Table.get bank k).base.toNat := by
          obtain ⟨-, -, overlap, -⟩ := (bank.slotFailure_eq_none_iff l hl).mp (h l)
          have apart := (bank.overlapping_eq_none_iff l).mp overlap k lower hk
          rw [← Bool.not_eq_true, Route.overlaps_iff] at apart
          omega
        rcases lt_or_gt_of_ne ne with lower | lower
        · exact apart i j lower hi hj
        · exact (apart j i lower hj hi).symm
    · rintro ⟨unused, used, apart⟩ i
      by_cases hi : (Table.get bank i).kind = .unused
      · simp [Bank.slotFailure, hi, unused i hi]
      · obtain ⟨ordered, size, conditions⟩ := used i hi
        refine (bank.slotFailure_eq_none_iff i hi).mpr
          ⟨ordered, size, ?_, (bank.slot_conditions_iff i hi).mpr conditions⟩
        refine (bank.overlapping_eq_none_iff i).mpr fun j lower hj => ?_
        rw [← Bool.not_eq_true, Route.overlaps_iff]
        have := apart j i lower.ne hj hi
        omega
  · rw [Bank.validate_eq_some_iff]
    constructor
    · rintro ⟨reports, passed⟩
      exact ⟨reports.fails, reports.first, passed, reports.alone, reports.met⟩
    · rintro ⟨fails, first, passed, alone, met⟩
      exact ⟨⟨fails, first, alone, met⟩, passed⟩

end Sys2Proof.Machine
end

section
/-! PROOFS. The trunk receiver (Section 10): every step keeps the partial frame and the gap timer in accord with the receive state,
what each event of TRXD does, and that a whole frame arrives as it was sent. -/

namespace Sys2Proof.Machine

/-! ### What keeps a receiver sound -/

/-- The state, the partial frame, the running of the gap timer, the inbound queue and the credit decide. -/
theorem Receiver.Sound.congr {rx rx' : Receiver} (h : rx.Sound) (state : rx'.state = rx.state)
    (building : rx'.building = rx.building) (gap : rx'.gap.isSome = rx.gap.isSome)
    (inbound : rx'.inbound.length ≤ 8) (credit : rx'.advertised ≤ 8) : rx'.Sound := by
  have none_iff : rx'.gap = none ↔ rx.gap = none := by
    rw [← Option.not_isSome_iff_eq_none, ← Option.not_isSome_iff_eq_none, gap]
  refine ⟨fun hs => ?_, fun hs => ?_, fun hs => ?_, fun hs => ?_, inbound, credit⟩
  · rw [state] at hs
    rw [building, none_iff]
    exact h.hunt hs
  · rw [state] at hs
    rw [building, gap]
    exact h.length hs
  · rw [state] at hs
    rw [building, gap]
    exact h.body hs
  · rw [state] at hs
    rw [building, gap]
    exact h.check hs

/-- A receiver that is in HUNT or BREAK with nothing begun. -/
theorem Receiver.sound_of_idle {rx : Receiver} (state : rx.state = .hunt ∨ rx.state = .inBreak)
    (building : rx.building = none) (gap : rx.gap = none) (inbound : rx.inbound.length ≤ 8) (credit : rx.advertised ≤ 8) :
    rx.Sound := by
  refine ⟨fun _ => ⟨building, gap⟩, fun hs => ?_, fun hs => ?_, fun hs => ?_, inbound, credit⟩
  all_goals simp [hs] at state

theorem Receiver.Sound.toHunt {rx : Receiver} (h : rx.Sound) : rx.toHunt.Sound :=
  Receiver.sound_of_idle (.inl rfl) rfl rfl h.inbound h.credit

/-- A good character leaves a sound receiver sound. -/
theorem State.receive_rxSound {s : State} (h : s.rx.Sound) (v : Byte) :
    (s.receive v).rx.Sound ∧ (s.receive v).rx.breakEnding = s.rx.breakEnding ∧
      ((s.receive v).rx.state = .inBreak → s.rx.state = .inBreak) := by
  have abandoned (reason : LinkReason) : (s.abandon reason).rx = s.rx.toHunt := rfl
  cases hs : s.rx.state with
  | hunt =>
    simp only [State.receive, hs]
    split
    · refine ⟨⟨fun hb => ?_, fun _ => ⟨rfl, rfl⟩, fun hb => ?_, fun hb => ?_, h.inbound, h.credit⟩, rfl, nofun⟩
      · rcases hb with hb | hb <;> cases hb
      · cases hb
      · cases hb
    · exact ⟨h, rfl, fun hb => absurd (hs.symm.trans hb) (by decide)⟩
  | length =>
    simp only [State.receive, hs]
    split
    · rename_i range
      refine ⟨⟨fun hb => ?_, fun hb => ?_, fun _ => ⟨rfl, v.toNat, [], rfl, range.1, range.2, ?_⟩, fun hb => ?_, h.inbound,
        h.credit⟩, rfl, nofun⟩
      · rcases hb with hb | hb <;> cases hb
      · cases hb
      · simp only [List.length_nil]
        omega
      · cases hb
    · rw [abandoned]
      exact ⟨h.toHunt, rfl, nofun⟩
  | body =>
    obtain ⟨gap, l, body, building, low, high, short⟩ := h.body hs
    simp only [State.receive, hs, building]
    by_cases more : (body ++ [v]).length < l
    · rw [if_pos more]
      refine ⟨⟨fun hb => ?_, fun hb => ?_, fun _ => ⟨rfl, l, _, rfl, low, high, more⟩, fun hb => ?_, h.inbound, h.credit⟩,
        rfl, nofun⟩
      · rcases hb with hb | hb <;> cases hb
      · cases hb
      · cases hb
    · rw [if_neg more]
      have full : (body ++ [v]).length = l := by
        simp only [List.length_append, List.length_singleton] at more ⊢
        omega
      refine ⟨⟨fun hb => ?_, fun hb => ?_, fun hb => ?_, fun _ => ⟨rfl, l, _, [], rfl, low, high, full, Nat.zero_le _⟩,
        h.inbound, h.credit⟩, rfl, nofun⟩
      · rcases hb with hb | hb <;> cases hb
      · cases hb
      · cases hb
  | check =>
    obtain ⟨gap, l, body, crc, building, low, high, full, few⟩ := h.check hs
    simp only [State.receive, hs, building]
    cases crc with
    | nil =>
      refine ⟨⟨fun hb => ?_, fun hb => ?_, fun hb => ?_, fun _ => ⟨rfl, l, body, [v], rfl, low, high, full, le_rfl⟩,
        h.inbound, h.credit⟩, rfl, fun hb => ?_⟩
      · rcases hb with hb | hb <;> simp at hb
      · simp at hb
      · simp at hb
      · simp at hb
    | cons c crc =>
      simp only [State.endFrameReception]
      split
      · split
        · rename_i slot
          refine ⟨Receiver.sound_of_idle (.inl rfl) rfl rfl ?_ h.credit, rfl, nofun⟩
          simp only [State.setRx_rx, List.length_append, List.length_singleton]
          exact slot
        · exact ⟨h.toHunt, rfl, nofun⟩
      · rw [abandoned]
        exact ⟨h.toHunt, rfl, nofun⟩
  | inBreak =>
    have same : s.receive v = s := by simp only [State.receive, hs]
    rw [same]
    exact ⟨h, rfl, fun _ => rfl⟩

theorem State.takesCharacters_iff (s : State) :
    s.takesCharacters = true ↔ s.stopped = false ∧ s.rx.state ≠ .inBreak ∧ s.rx.waiting = false ∧ s.rx.cut = false := by
  simp [State.takesCharacters, and_assoc]

/-- The return of TRXD to marking, with the end of a character that a reset cut off noted or not. -/
theorem State.riseToMarking_receiverSound {s : State} (h : s.ReceiverSound) (cut breakEnds : Bool) :
    ((s.setRx { s.rx with cut := cut }).riseToMarking breakEnds).ReceiverSound := by
  have kept : Receiver.Sound { s.rx with cut := cut } := h.rx.congr rfl rfl rfl h.rx.inbound h.rx.credit
  unfold State.riseToMarking
  simp only
  split
  · rename_i stopped
    exact ⟨kept, h.breakEnding, fun running => absurd (stopped.symm.trans running) (by decide)⟩
  · split
    · rename_i ends
      have idle : s.rx.state = .hunt ∨ s.rx.state = .inBreak := by
        simp only [Bool.or_eq_true, Bool.and_eq_true, beq_iff_eq] at ends
        exact ends.symm.imp (fun both => (h.breakEnding both.2).1) id
      obtain ⟨building, gap⟩ := h.rx.hunt idle
      exact ⟨Receiver.sound_of_idle (.inl rfl) building gap h.rx.inbound h.rx.credit, nofun, nofun⟩
    · rename_i notBreak
      refine ⟨h.rx.congr rfl rfl rfl h.rx.inbound h.rx.credit, nofun, fun _ hb => ?_⟩
      have broken : s.rx.state = .inBreak := hb
      simp [broken] at notBreak

theorem State.LinkEvent.receiverSound {s t : State} (h : s.ReceiverSound) (e : s.LinkEvent t) : t.ReceiverSound := by
  have calm (takes : s.takesCharacters = true) : s.rx.breakEnding = false := by
    by_contra ending
    have waiting := (h.breakEnding (by simpa using ending)).2
    simp [((State.takesCharacters_iff s).mp takes).2.2.1] at waiting
  cases e with
  | goodCharacter v =>
    unfold State.goodCharacter
    split
    · exact State.riseToMarking_receiverSound h false false
    · split
      · rename_i takes
        obtain ⟨-, noBreak, -⟩ := (State.takesCharacters_iff s).mp takes
        obtain ⟨sound, ending, breaks⟩ := State.receive_rxSound
          (s := { s with trxd := .marking, rx := { s.rx with inCharacter := false, spacing := none } })
          (h.rx.congr rfl rfl rfl h.rx.inbound h.rx.credit) v
        refine ⟨sound, fun hb => ?_, fun _ hb => absurd (breaks hb) noBreak⟩
        rw [ending, calm takes] at hb
        cases hb
      · exact h
  | badCharacter =>
    unfold State.badCharacter
    split
    · exact ⟨h.rx.congr rfl rfl rfl h.rx.inbound h.rx.credit, h.breakEnding, fun _ _ => rfl⟩
    · split
      · rename_i takes
        simp only
        split
        · refine ⟨Receiver.Sound.toHunt (h.rx.congr rfl rfl rfl h.rx.inbound h.rx.credit), fun hb => ?_, fun _ _ => rfl⟩
          exact absurd (hb.symm.trans (calm takes)) (by decide)
        · refine ⟨h.rx.congr rfl rfl rfl h.rx.inbound h.rx.credit, fun hb => ?_, fun _ _ => rfl⟩
          exact absurd (hb.symm.trans (calm takes)) (by decide)
      · exact h
  | expireGap =>
    unfold State.expireGap
    split
    · rename_i receives
      refine ⟨h.rx.toHunt, fun hb => ?_, nofun⟩
      have hunt := (h.breakEnding hb).1
      simp [Receiver.receiving, hunt] at receives
    · exact h
  | enterBreak =>
    unfold State.enterBreak
    simp only
    split
    · exact ⟨h.rx, h.breakEnding, fun _ _ => rfl⟩
    · have entered (rx : Receiver) (hrx : rx = { s.rx with
          state := .inBreak, building := none, gap := none, spacing := none, inCharacter := false, cut := false,
          breakEnding := false, inbound := [] }) (x : NoticeUnit) :
          ({ s with trxd := .spacing, rx := rx, notices := x } : State).ReceiverSound := by
        subst hrx
        exact ⟨Receiver.sound_of_idle (.inr rfl) rfl rfl (Nat.zero_le _) h.rx.credit, nofun, fun _ _ => rfl⟩
      split
      · exact entered _ rfl _
      · exact entered _ rfl _
  | riseToMarking breakEnds => exact State.riseToMarking_receiverSound h s.rx.cut breakEnds
  | fall falseStart =>
    unfold State.fall
    split
    · exact h
    · simp only
      split
      · rename_i stopped
        exact ⟨h.rx, h.breakEnding, fun _ _ => rfl⟩
      · split
        · exact ⟨h.rx.congr rfl rfl rfl h.rx.inbound h.rx.credit, nofun, fun _ _ => rfl⟩
        · refine ⟨h.rx.congr rfl rfl ?_ h.rx.inbound h.rx.credit, nofun, fun _ _ => rfl⟩
          cases hs : s.rx.state with
          | hunt => simp [Receiver.receiving]
          | inBreak => simp [Receiver.receiving]
          | length => simp [Receiver.receiving, (h.rx.length hs).2]
          | body => simp [Receiver.receiving, (h.rx.body hs).1]
          | check => simp [Receiver.receiving, (h.rx.check hs).1]

/-! ### The receiver beside the other blocks -/

theorem State.KeepsTrunk.stopped {s t : State} (h : s.KeepsTrunk t) : t.stopped = s.stopped := by
  simp [State.stopped, h.supply]

/-- The receiver, TRXD and the running of the part decide. -/
theorem State.ReceiverSound.of_eq {s t : State} (h : s.ReceiverSound) (rx : t.rx = s.rx) (trxd : t.trxd = s.trxd)
    (stopped : t.stopped = false → s.stopped = false) : t.ReceiverSound := by
  obtain ⟨sound, ending, inBreak⟩ := h
  refine ⟨by rwa [rx], by rwa [rx], fun running broken => ?_⟩
  rw [trxd]
  exact inBreak (stopped running) (rx ▸ broken)

theorem State.KeepsTrunk.receiverSound {s t : State} (k : s.KeepsTrunk t) (h : s.ReceiverSound) : t.ReceiverSound :=
  h.of_eq k.rx k.trxd fun running => by rwa [k.stopped] at running

theorem State.takeHead_receiverSound {s : State} {fr : Frame} {rest : List Frame} (h : s.ReceiverSound)
    (head : s.rx.inbound = fr :: rest) : (s.takeHead fr rest).ReceiverSound := by
  refine (s.takeHead_keepsTrunk fr rest).receiverSound ⟨h.rx.congr rfl rfl rfl ?_ h.rx.credit, h.breakEnding, h.inBreak⟩
  have bound := h.rx.inbound
  rw [head, List.length_cons] at bound
  exact Nat.le_of_succ_le bound

theorem State.take_receiverSound {s : State} (names : Frame → Bool) (h : s.ReceiverSound) :
    (s.take names).ReceiverSound := by
  rcases s.take_cases names with same | ⟨fr, rest, head, -, -, taken⟩
  · rwa [same]
  · rw [taken]
    exact State.takeHead_receiverSound h head

theorem State.drain_keepsTrunk (s : State) : s.KeepsTrunk s.drain := by
  unfold State.drain
  split
  · split
    · exact .refl s
    · simp only
      split
      · exact (s.setRoutes_keepsTrunk _).trans (State.completeEntry_keepsTrunk _ _ _ _)
      · exact s.setRoutes_keepsTrunk _
  · exact .refl s

theorem State.expireQuiesce_keepsTrunk (s : State) : s.KeepsTrunk s.expireQuiesce := by
  unfold State.expireQuiesce
  split
  · exact .refl s
  · split
    · exact .refl s
    · simp only
      split
      · exact (s.setRoutes_keepsTrunk _).trans (State.completeEntry_keepsTrunk _ _ _ _)
      · exact s.setRoutes_keepsTrunk _

/-- What is taken before a decision is kept by what keeps a drain and the taking of a head. -/
theorem State.beforeDecision_keeps {P : State → Prop} {s : State} (hs : P s)
    (counted : ∀ n, P s → P { s with freeCount := n }) (drain : ∀ t, P t → P t.drain)
    (take : ∀ t names, P t → P (t.take names)) : P s.beforeDecision := by
  unfold State.beforeDecision
  split
  · refine List.foldlRecOn (motive := P) _ _ (counted _ hs) fun t ht c _ => ?_
    cases c
    · exact drain t ht
    · exact take t _ ht
  · exact hs

theorem State.beginFrame_advertised (s : State) (src : Source) :
    (s.beginFrame src).rx.advertised = s.rx.advertised ∨ (s.beginFrame src).rx.advertised = s.rx.freeSlots := by
  unfold State.beginFrame
  split <;> split
  any_goals exact .inl rfl
  all_goals exact .inr rfl

theorem State.beginFrame_receiverSound {s : State} (h : s.ReceiverSound) (src : Source) :
    (s.beginFrame src).ReceiverSound := by
  have begins := s.beginFrame_begins src
  have credit : (s.beginFrame src).rx.advertised ≤ 8 := by
    rcases s.beginFrame_advertised src with same | free
    · rw [same]
      exact h.rx.credit
    · rw [free]
      exact Nat.sub_le _ _
  have rx := begins.inbound
  have stopped : (s.beginFrame src).stopped = s.stopped := by simp [State.stopped, begins.supply]
  generalize s.beginFrame src = t at *
  refine ⟨?_, ?_, ?_⟩
  · rw [rx]
    exact h.rx.congr rfl rfl rfl h.rx.inbound credit
  · rw [rx]
    exact h.breakEnding
  · rw [rx, stopped, begins.trxd]
    exact h.inBreak

theorem State.arbitrate_receiverSound {s : State} {ready : Source → Bool}
    (hready : ∀ x, ready x = true → s.sourceReady x = true) (h : s.ReceiverSound) :
    (s.arbitrate ready).ReceiverSound :=
  State.arbitrate_keeps hready (fun _ _ => h.of_eq rfl rfl id)
    (fun src _ _ _ => State.beginFrame_receiverSound (s := s.setArbiter _) (by exact h.of_eq rfl rfl id) src)

theorem Receiver.atStart_sound (l : Level) (rate : RateCode) : (Receiver.atStart l rate).Sound := by
  cases l <;> exact Receiver.sound_of_idle (.inl rfl) rfl rfl (Nat.zero_le _) le_rfl

theorem Receiver.afterReset_sound (rx : Receiver) (l : Level) (rate : RateCode) : (rx.afterReset l rate).Sound :=
  (Receiver.atStart_sound l rate).congr rfl rfl rfl (Receiver.atStart_sound l rate).inbound
    (Receiver.atStart_sound l rate).credit

theorem Receiver.atStart_state (l : Level) (rate : RateCode) : (Receiver.atStart l rate).state = .hunt := by
  cases l <;> rfl

/-- A break that a reset cuts off is waited out, as TRXD is at spacing (R180, R188). -/
theorem State.takeEffect_receiverSound {s : State} (h : s.ReceiverSound) (running : s.stopped = false)
    (scope : ResetScope) (straps : RateCode) : (s.takeEffect scope straps).ReceiverSound := by
  have after (t : State) (rate : RateCode) (rx : t.rx = s.rx.afterReset s.trxd rate) : t.ReceiverSound := by
    refine ⟨by rw [rx]; exact Receiver.afterReset_sound _ _ _, ?_, ?_⟩
    · rw [rx]
      intro ending
      have broken : s.rx.state = .inBreak := by simpa [Receiver.afterReset] using ending
      refine ⟨Receiver.atStart_state _ _, ?_⟩
      rw [h.inBreak running broken]
      rfl
    · rw [rx]
      intro _ broken
      exact absurd ((Receiver.atStart_state s.trxd rate).symm.trans broken) (by decide)
  cases scope
  · exact after _ s.rx.rate rfl
  · exact after _ straps rfl

theorem State.SupplyEvent.receiverSound {s t : State} {c : Instr} (h : s.ReceiverSound) (e : s.SupplyEvent c t) :
    t.ReceiverSound := by
  rcases e.cases with rfl | ⟨sup, rfl, stopped⟩ | ⟨sup, rfl, stopped⟩ | ⟨straps, cause, rfl⟩
  · exact h
  · exact ⟨Receiver.sound_of_idle (.inl rfl) rfl rfl h.rx.inbound h.rx.credit, nofun,
      fun running => absurd (stopped.symm.trans running) (by decide)⟩
  · exact ⟨h.rx, h.breakEnding, fun running => absurd (stopped.symm.trans running) (by decide)⟩
  · have state := Receiver.atStart_state s.trxd straps
    refine ⟨Receiver.atStart_sound s.trxd straps, fun ending => ?_, fun _ broken => ?_⟩
    · have calm : (Receiver.atStart s.trxd straps).breakEnding = false := by cases s.trxd <;> rfl
      exact absurd (ending.symm.trans calm) (by decide)
    · exact absurd (broken.symm.trans state) (by decide)

theorem State.Event.receiverSound {s t : State} {c : Instr} (h : s.ReceiverSound) (e : s.Event c t) : t.ReceiverSound := by
  have work {u : State} (w : s.OnlyWork u) : u.ReceiverSound := w.keepsTrunk.receiverSound h
  cases e with
  | link e => exact e.receiverSound h
  | engine b e => exact work (State.onlyWork_closed.engineEvent e)
  | expireWatch i => exact work (State.onlyWork_closed.expireWatch s i)
  | take names _ => exact State.take_receiverSound names h
  | drain => exact s.drain_keepsTrunk.receiverSound h
  | expireQuiesce => exact s.expireQuiesce_keepsTrunk.receiverSound h
  | endFrame straps =>
    rcases s.endFrame_cases straps with same | ⟨frame, u, running, -, released, ends⟩
    · rwa [same]
    · rw [ends]
      refine State.arbitrate_receiverSound (fun _ => id) ?_
      have cleared : ({ s with tx := none } : State).ReceiverSound := h.of_eq rfl rfl id
      generalize frame.what = what at released
      cases released with
      | notice => exact cleared
      | reset _ => exact State.takeEffect_receiverSound cleared running _ _
      | @response i _ =>
        exact State.beforeDecision_keeps
          ((State.onlyWork_closed.freeEntry _ i).keepsTrunk.receiverSound cleared)
          (fun _ ht => ht.of_eq rfl rfl id)
          (fun t ht => t.drain_keepsTrunk.receiverSound ht)
          (fun _ names ht => State.take_receiverSound names ht)
  | grantIdle =>
    rcases s.grantIdle_cases with same | ⟨n, ready, -, hready, granted⟩
    · rwa [same]
    · rw [granted]
      exact State.arbitrate_receiverSound (s := { s with freeCount := n }) hready (h.of_eq rfl rfl id)
  | supply e => exact e.receiverSound h

/-- Settles O57: by the receive state for the events of TRXD; the other blocks only take frames out of the queue, and a reset
begins from HUNT. -/
theorem stepKeepsTheReceiverSound : Obligations.StepKeepsTheReceiverSound := fun _ _ =>
  step_keeps (P := State.ReceiverSound) (fun _ _ h => h.of_eq rfl rfl id)
    (fun s h => by
      rcases s.tick_cases with same | ⟨-, elapsed⟩
      · rwa [same]
      · rw [elapsed]
        exact ⟨h.rx.congr rfl rfl (by simp [State.elapse]) h.rx.inbound h.rx.credit, nofun, h.inBreak⟩)
    (fun _ _ _ => State.Event.receiverSound)

end Sys2Proof.Machine
end

section
/-! PROOFS. What each event of TRXD does, from the running of the part, the receive state and the partial frame: good characters
(R169, R170), character errors, gaps and falls (R165, R171, R172), breaks (R177, R178), and the arrival of a whole frame. -/

namespace Sys2Proof.Machine

/-! ### Good characters -/

/-- A good character that is taken goes to the receive state with TRXD at marking and no character in progress. -/
theorem exec_receiveCharacter_taken {s : State} (h : s.takesCharacters = true) (v : Byte) :
    exec (.receiveCharacter v) s =
      .next ({ s with trxd := .marking, rx := { s.rx with inCharacter := false, spacing := none } }.receive v) := by
  have uncut := ((State.takesCharacters_iff s).mp h).2.2.2
  show Host.Outcome.next (s.goodCharacter v) = _
  simp [State.goodCharacter, h, uncut]

/-- FRAME_RECEIVED is the good character it names. -/
theorem exec_frameReceived (v : Byte) (s : State) : exec (.frameReceived v) s = exec (.receiveCharacter v) s := rfl

theorem startByte_eq : startByte = 0xB5#8 := rfl

/-- Settles O7: the first two receive states, as `receive` says them. -/
theorem huntAndLengthCharacters : Obligations.HuntAndLengthCharacters := by
  intro s v takes
  rw [exec_receiveCharacter_taken takes]
  refine ⟨fun hs hv => ?_, fun hs hv => ?_, fun hs low high => ?_, fun hs out => ?_⟩
  · simp [State.receive, hs, hv, startByte_eq, State.setRx]
  · simp [State.receive, hs, hv, startByte_eq]
  · simp [State.receive, hs, low, high, State.setRx]
  · have outside : ¬ (2 ≤ v.toNat ∧ v.toNat ≤ 40) := by omega
    simp [State.receive, hs, outside, State.abandon, Receiver.toHunt, State.setRx]

theorem halfBytes_eq_iff (w : Half) (high low : Byte) : halfBytes w = [high, low] ↔ w = high ++ low := by
  constructor
  · intro h
    obtain ⟨hh, hl, -⟩ : w.high = high ∧ w.low = low ∧ True := by simpa [halfBytes] using h
    rw [← hh, ← hl]
    exact (Half.ofBytes_high_low w).symm
  · rintro rfl
    exact halfBytes_ofBytes high low

/-- The end of the second CRC character, by the comparison of the CRC and the room in the inbound queue. -/
theorem State.endFrameReception_eq (s : State) (l : Nat) (body : List Byte) (high low : Byte) :
    s.endFrameReception l body [high, low] =
      if crc16 (Byte.ofCount l :: body) ≠ high ++ low then (s.setRx s.rx.toHunt).hand (.linkError .crc 1)
      else if s.rx.inbound.length < 8 then
        s.setRx { s.rx.toHunt with inbound := s.rx.inbound ++ [frameOfBody body] }
      else (s.setRx s.rx.toHunt).hand (.overrun (frameOfBody body).tag 1) := by
  simp only [State.endFrameReception, halfBytes_eq_iff, State.abandon, ne_eq, ite_not]
  rfl

/-- Settles O8: the other two receive states, and the comparison at the second CRC character. -/
theorem bodyAndCheckCharacters : Obligations.BodyAndCheckCharacters := by
  intro s v l body crc takes building
  rw [exec_frameReceived, exec_receiveCharacter_taken takes]
  refine ⟨fun hs more => ?_, fun hs full => ?_, fun hs first => ?_, fun high hs second => ?_⟩
  · simp [State.receive, hs, building, more, State.setRx]
  · have full' : ¬ body.length + 1 < l := by omega
    simp [State.receive, hs, building, full', State.setRx]
  · simp [State.receive, hs, building, first, State.setRx]
  · simp only [State.receive, hs, building, second, List.singleton_append, State.endFrameReception_eq]
    rfl

/-! ### Character errors, gaps and edges -/

theorem Receiver.receiving_iff (rx : Receiver) :
    rx.receiving = true ↔ rx.state = .length ∨ rx.state = .body ∨ rx.state = .check := by
  simp [Receiver.receiving, or_assoc]

theorem Receiver.not_inBreak_of_receiving {rx : Receiver} (h : rx.receiving = true) : (rx.state == .inBreak) = false := by
  rcases (Receiver.receiving_iff rx).mp h with hs | hs | hs <;> simp [hs]

/-- A character error that is taken, by whether a frame is being received. -/
theorem exec_characterError_taken {s : State} (h : s.takesCharacters = true) :
    exec .characterError s =
      .next
        (let t := { s with trxd := .spacing, rx := { s.rx with inCharacter := false, waiting := true } }
         if s.rx.receiving then t.abandon .char else t) := by
  have uncut := ((State.takesCharacters_iff s).mp h).2.2.2
  show Host.Outcome.next s.badCharacter = _
  simp [State.badCharacter, h, uncut, Receiver.receiving]

/-- A return of TRXD to marking outside a break. -/
theorem State.riseToMarking_outside {s : State} (running : s.stopped = false) (outside : s.rx.state ≠ .inBreak) :
    s.riseToMarking false =
      { s with trxd := .marking, rx := { s.rx with waiting := false, spacing := none, breakEnding := false } } := by
  have running' : ({ s with trxd := .marking } : State).stopped = false := running
  simp [State.riseToMarking, running', outside, State.setRx]

/-- A return of TRXD to marking that ends a break. -/
theorem State.riseToMarking_ends {s : State} (running : s.stopped = false)
    (ends : s.rx.state = .inBreak ∨ s.rx.breakEnding = true) :
    s.riseToMarking true =
      { s with
        trxd := .marking
        rx := { s.rx with state := .hunt, waiting := false, spacing := none, breakEnding := false } }.hand
          (.resync s.rx.lastTag) := by
  have running' : ({ s with trxd := .marking } : State).stopped = false := running
  have ends' : (s.rx.state == .inBreak || (true && s.rx.breakEnding)) = true := by simpa using ends
  simp only [State.riseToMarking, running', Bool.false_eq_true, if_false, ends', if_true]
  rfl

/-- A fall of TRXD from marking: the spacing timer starts, and a character may begin. -/
theorem State.fall_eq {s : State} (running : s.stopped = false) (high : s.trxd = .marking) (falseStart : Bool) :
    s.fall falseStart =
      let fallen := { s.rx with spacing := some (breakUnits s.rx.rate), breakEnding := false }
      { s with
        trxd := .spacing
        rx :=
          if falseStart || s.rx.inCharacter || s.rx.waiting || s.rx.state == .inBreak then fallen
          else
            { fallen with
              inCharacter := true
              cut := false
              gap := if s.rx.receiving then some (gapUnits s.rx.rate) else s.rx.gap } } := by
  have running' : ({ s with trxd := .spacing } : State).stopped = false := running
  simp only [State.fall, high, reduceCtorEq, if_false, running', Bool.false_eq_true]
  split <;> rfl

/-- A good character that a reset cut off only returns TRXD to marking. -/
theorem State.goodCharacter_cut {s : State} (running : s.stopped = false) (cut : s.rx.cut = true)
    (outside : s.rx.state ≠ .inBreak) (v : Byte) :
    s.goodCharacter v =
      { s with
        trxd := .marking
        rx := { s.rx with waiting := false, spacing := none, breakEnding := false, cut := false } } := by
  have ended := State.riseToMarking_outside (s := s.setRx { s.rx with cut := false }) running outside
  simp only [State.goodCharacter, running, cut, Bool.not_false, Bool.and_self, if_true, ended]
  rfl

/-- Settles O9. -/
theorem characterErrorsGapsAndLineFalls : Obligations.CharacterErrorsGapsAndLineFalls := by
  refine ⟨fun s => ⟨fun takes hs => ?_, fun takes receiving => ?_, fun running receiving => ?_⟩,
    fun s running => ⟨?_, ?_, ?_, ?_, ?_⟩⟩
  · rw [exec_characterError_taken takes]
    simp [Receiver.receiving, hs]
  · rw [exec_characterError_taken takes]
    simp only [(Receiver.receiving_iff s.rx).mpr receiving, if_true]
    rfl
  · show Host.Outcome.next s.expireGap = _
    simp only [State.expireGap, running, (Receiver.receiving_iff s.rx).mpr receiving, Bool.not_false, Bool.and_self, if_true]
    rfl
  · intro f high none
    have shut : (f || s.rx.inCharacter || s.rx.waiting || s.rx.state == .inBreak) = true := by
      simpa [or_assoc] using none
    show Host.Outcome.next (s.fall f) = _
    rw [State.fall_eq running high]
    simp only [shut, if_true]
    rfl
  · intro high noCharacter noWait hunt
    show Host.Outcome.next (s.fall false) = _
    rw [State.fall_eq running high]
    simp [noCharacter, noWait, hunt, Receiver.receiving, breakUnits]
  · intro high noCharacter noWait receiving
    have receives := (Receiver.receiving_iff s.rx).mpr receiving
    show Host.Outcome.next (s.fall false) = _
    rw [State.fall_eq running high]
    simp [noCharacter, noWait, receives, Receiver.not_inBreak_of_receiving receives, breakUnits, gapUnits]
  · intro outside
    exact congrArg Host.Outcome.next (State.riseToMarking_outside running outside)
  · intro cut outside
    refine ⟨fun v => ?_, ?_⟩
    · have ended := State.goodCharacter_cut running cut outside v
      exact ⟨congrArg Host.Outcome.next ended, congrArg Host.Outcome.next ended⟩
    · show Host.Outcome.next s.badCharacter = _
      simp [State.badCharacter, running, cut]

/-! ### Breaks -/

/-- The CREDIT trigger of an empty inbound queue (R176). -/
theorem Receiver.creditDue_of_empty {rx : Receiver} (h : rx.inbound = []) :
    rx.creditDue = decide (rx.advertised ≤ 4) := by
  have free : rx.freeSlots = 8 := by rw [Receiver.freeSlots, h]; rfl
  simp only [Receiver.creditDue, free]
  by_cases low : rx.advertised ≤ 4
  · simp [low]
  · have positive : rx.advertised ≠ 0 := by omega
    simp [low, positive]

/-- Settles O10. -/
theorem breakEmptiesTheQueueAndEndsWithResync : Obligations.BreakEmptiesTheQueueAndEndsWithResync := by
  refine ⟨fun s running outside => ?_, fun s running => ⟨fun ends => ?_, fun hunt => ?_⟩⟩
  · have running' : ({ s with trxd := .spacing } : State).stopped = false := running
    have due : ∀ rx : Receiver, rx.inbound = [] → ((!s.rx.inbound.isEmpty && rx.creditDue) = true ↔
        s.rx.inbound ≠ [] ∧ rx.advertised ≤ 4) := by
      intro rx empty
      simp [Receiver.creditDue_of_empty empty]
    show Host.Outcome.next s.enterBreak = _
    simp only [State.enterBreak, running', beq_eq_false_iff_ne.mpr outside, Bool.or_self, Bool.false_eq_true, if_false]
    congr 1
    exact if_congr (due _ rfl) rfl rfl
  · exact congrArg Host.Outcome.next (State.riseToMarking_ends running ends)
  · have outside : s.rx.state ≠ .inBreak := by rw [hunt]; decide
    show Host.Outcome.next (s.riseToMarking false) = _
    rw [State.riseToMarking_outside running outside]
    simp [← hunt]

/-! ### A whole frame -/

theorem execAll_cons {c : Instr} {rest : List Instr} {s t : State} (h : exec c s = .next t) :
    execAll (c :: rest) s = execAll rest t := by
  simp only [execAll, h]

theorem execAll_append {l l' : List Instr} {s t : State} (h : execAll l s = .next t) :
    execAll (l ++ l') s = execAll l' t := by
  induction l generalizing s with
  | nil =>
    simp only [execAll, Host.Outcome.next.injEq] at h
    rw [List.nil_append, h]
  | cons c rest ih =>
    obtain ⟨u, hu, -⟩ := exec_event c s
    rw [execAll_cons hu] at h
    rw [List.cons_append, execAll_cons hu, ih h]

/-- The part of `s` while it receives a frame: TRXD at marking, no character in progress, a receive state and a partial frame. -/
def State.receivingAt (s : State) (st : ReceiveState) (p : Option PartialFrame) (gap : Option Nat) : State :=
  { s with
    trxd := .marking
    rx := { s.rx with state := st, building := p, gap := gap, inCharacter := false, spacing := none } }

theorem State.receivingAt_takes {s : State} (h : s.takesCharacters = true) {st : ReceiveState} (notBreak : st ≠ .inBreak)
    (p : Option PartialFrame) (gap : Option Nat) : (s.receivingAt st p gap).takesCharacters = true := by
  obtain ⟨running, -, noWait, uncut⟩ := (State.takesCharacters_iff s).mp h
  exact (State.takesCharacters_iff _).mpr ⟨running, notBreak, noWait, uncut⟩

/-- The body characters of a frame, received one after the other, are kept; the last of them begins CHECK (R170). -/
theorem State.receive_body {s : State} (h : s.takesCharacters = true) (l : Nat) (gap : Nat) (later : List Byte) :
    ∀ (body : List Byte), later ≠ [] → body.length + later.length = l →
      ∃ gap', execAll (later.map Instr.receiveCharacter) (s.receivingAt .body (some ⟨some l, body, []⟩) (some gap)) =
        .next (s.receivingAt .check (some ⟨some l, body ++ later, []⟩) (some gap')) := by
  induction later generalizing gap with
  | nil => exact fun _ nonempty => absurd rfl nonempty
  | cons v later ih =>
    intro body _ total
    rw [List.length_cons] at total
    have takes := State.receivingAt_takes h (st := .body) (by decide) (some ⟨some l, body, []⟩) (some gap)
    have kept := bodyAndCheckCharacters _ v l body [] takes rfl
    obtain ⟨more, full, -, -⟩ := kept
    cases later with
    | nil =>
      refine ⟨gapUnitsAtCharacterEnd s.rx.rate, ?_⟩
      exact execAll_cons (full rfl total)
    | cons w later =>
      have room : body.length + 1 < l := by rw [List.length_cons] at total; omega
      obtain ⟨gap', rest⟩ := ih (gapUnitsAtCharacterEnd s.rx.rate) (body ++ [v]) (by simp) (by simp; simp at total; omega)
      refine ⟨gap', ?_⟩
      rw [List.map_cons, execAll_cons (more rfl room)]
      rw [List.append_assoc, List.singleton_append] at rest
      exact rest

theorem Frame.covered_eq (fr : Frame) :
    fr.covered = Byte.ofCount (fr.payload.length + 2) :: fr.kind :: fr.tag :: fr.payload := by
  rw [Frame.covered, Frame.lengthByte]

/-- Settles O11: the start byte, the length byte, the body and the first CRC character bring the receiver to the comparison. -/
theorem receiverDeliversEveryFrame : Obligations.ReceiverDeliversEveryFrame := by
  intro s fr high low takes hunt short done
  set l := fr.payload.length + 2 with hl
  have length : (Byte.ofCount l).toNat = l := Byte.ofCount_toNat (by omega)
  have begun : exec (.receiveCharacter 0xB5#8) s =
      .next (s.receivingAt .length (some ⟨none, [], []⟩) (some (gapUnitsAtCharacterEnd s.rx.rate))) :=
    (huntAndLengthCharacters s _ takes).1 hunt rfl
  have sized : exec (.receiveCharacter (Byte.ofCount l))
      (s.receivingAt .length (some ⟨none, [], []⟩) (some (gapUnitsAtCharacterEnd s.rx.rate))) =
      .next (s.receivingAt .body (some ⟨some l, [], []⟩) (some (gapUnitsAtCharacterEnd s.rx.rate))) := by
    obtain ⟨-, -, inRange, -⟩ := huntAndLengthCharacters _ (Byte.ofCount l)
      (State.receivingAt_takes takes (st := .length) (by decide) (some ⟨none, [], []⟩)
        (some (gapUnitsAtCharacterEnd s.rx.rate)))
    rw [length] at inRange
    exact inRange rfl (by omega) (by omega)
  obtain ⟨gap, bodied⟩ := State.receive_body takes l (gapUnitsAtCharacterEnd s.rx.rate) (fr.kind :: fr.tag :: fr.payload) []
    (by simp) (by simp [hl])
  rw [List.nil_append] at bodied
  have checked : ∀ gap, exec (.receiveCharacter high)
      (s.receivingAt .check (some ⟨some l, fr.kind :: fr.tag :: fr.payload, []⟩) (some gap)) =
      .next (s.receivingAt .check (some ⟨some l, fr.kind :: fr.tag :: fr.payload, [high]⟩)
        (some (gapUnitsAtCharacterEnd s.rx.rate))) := fun gap =>
    (bodyAndCheckCharacters _ high l _ [] (State.receivingAt_takes takes (by decide) _ _) rfl).2.2.1 rfl rfl
  have compared := (bodyAndCheckCharacters (s.receivingAt .check (some ⟨some l, fr.kind :: fr.tag :: fr.payload, [high]⟩)
    (some (gapUnitsAtCharacterEnd s.rx.rate))) low l _ [high] (State.receivingAt_takes takes (by decide) _ _) rfl).2.2.2
    high rfl rfl
  have arrival : fr.arrival high low =
      .receiveCharacter 0xB5#8 :: .receiveCharacter (Byte.ofCount l) ::
        ((fr.kind :: fr.tag :: fr.payload).map Instr.receiveCharacter ++ [.receiveCharacter high, .frameReceived low]) := by
    simp [Frame.arrival, Frame.covered_eq, hl, startByte_eq]
  rw [arrival, execAll_cons begun, execAll_cons sized, execAll_append bodied, execAll_cons (checked gap),
    execAll_cons compared]
  have restored : ({ s.rx with
      state := .hunt, building := none, gap := none, inCharacter := false, spacing := none } : Receiver) = done := by
    simp [done, ← hunt]
  simp only [execAll, Frame.covered_eq, ← hl, ne_comm (a := crc16 _), ← restored]
  rfl

end Sys2Proof.Machine
end

section
/-! PROOFS. The machine: steps, the queue of commands, the stopped part, the independence of the engines, and the head that
waits. -/

namespace Sys2Proof.Machine

/-! ### Steps -/

/-- Settles O1: it is the second case of `step`. -/
theorem stepRunsTheFrontCommand : Obligations.StepRunsTheFrontCommand := fun _ _ => rfl

theorem step_of_empty {s : State} (h : s.pending = []) : step s = .next s.tick := by
  simp only [step, h]

/-- Settles O2. -/
theorem emptyQueueLetsTimePass : Obligations.EmptyQueueLetsTimePass := by
  intro s empty
  rw [step_of_empty empty]
  refine ⟨fun waits => ?_, fun running calm late => ?_⟩
  · have waits' : (s.stopped || s.immediate || s.timerDue) = true := by simpa [or_assoc] using waits
    simp only [State.tick, waits', if_true]
  · simp only [State.tick, running, calm, late, Bool.or_self, Bool.false_eq_true, if_false, State.elapse, Table.map_eq]
    rfl

/-! ### The queue of commands -/

theorem State.pendingKept_admits : State.Admits (fun s t : State => t.pending = s.pending) where
  refl _ := rfl
  trans h k := k.trans h
  setEntry _ _ _ := rfl
  setEngine _ _ _ := rfl
  setTimers _ _ := rfl
  placeTimer _ _ _ := rfl
  hand _ _ := rfl
  join _ _ _ := rfl
  freeEntry s i := (State.onlyWork_closed.freeEntry s i).pending
  setRx _ _ := rfl
  setRoutes _ _ := rfl
  setArbiter _ _ := rfl
  setHalt _ := rfl
  countFree _ _ := rfl
  allocate _ _ _ := rfl

theorem State.takeEffect_pending (s : State) (scope : ResetScope) (straps : RateCode) :
    (s.takeEffect scope straps).pending = s.pending := by
  cases scope <;> rfl

theorem State.arbitrate_pending (s : State) {ready : Source → Bool}
    (hready : ∀ x, ready x = true → s.sourceReady x = true) : (s.arbitrate ready).pending = s.pending :=
  State.arbitrate_keeps (P := fun t => t.pending = s.pending) hready (fun _ _ => rfl)
    (fun src _ _ _ => (State.beginFrame_begins _ src).pending)

theorem State.SupplyEvent.pending {s t : State} {c : Instr} (e : s.SupplyEvent c t) : t.pending = s.pending := by
  rcases e.cases with rfl | ⟨sup, rfl, -⟩ | ⟨sup, rfl, -⟩ | ⟨straps, cause, rfl⟩ <;> rfl

theorem State.Event.pending {s t : State} {c : Instr} (e : s.Event c t) : t.pending = s.pending := by
  have admits := State.pendingKept_admits
  cases e with
  | link e => rw [e.onlyLink.same]
  | engine b e => exact admits.toClosed.engineEvent e
  | expireWatch i => exact admits.toClosed.expireWatch s i
  | take names _ => exact admits.take s names
  | drain => exact admits.drain s
  | expireQuiesce => exact admits.expireQuiesce s
  | endFrame straps =>
    rcases s.endFrame_cases straps with same | ⟨frame, u, -, -, released, ends⟩
    · rw [same]
    · rw [ends, State.arbitrate_pending u fun _ => id]
      generalize frame.what = what at released
      cases released with
      | notice => rfl
      | reset _ => exact State.takeEffect_pending _ _ _
      | @response i _ => exact admits.trans (admits.freeEntry { s with tx := none } i) (admits.beforeDecision _)
  | grantIdle =>
    rcases s.grantIdle_cases with same | ⟨n, ready, -, hready, granted⟩
    · rw [same]
    · rw [granted]
      exact State.arbitrate_pending { s with freeCount := n } hready
  | supply e => exact e.pending

/-- Settles O3. -/
theorem everyCommandCompletesAndKeepsTheQueue : Obligations.EveryCommandCompletesAndKeepsTheQueue := by
  intro c s
  obtain ⟨t, ht, event⟩ := exec_event c s
  exact ⟨t, ht, event.pending⟩

/-! ### The stopped part -/

theorem State.not_takesCharacters_of_stopped {s : State} (h : s.stopped = true) : s.takesCharacters = false := by
  simp [State.takesCharacters, h]

/-- A stopped part follows the level of TRXD alone. -/
theorem State.LinkEvent.of_stopped {s t : State} (h : s.stopped = true) (e : s.LinkEvent t) :
    ∃ l, t = { s with trxd := l } := by
  have stopped (l : Level) : ({ s with trxd := l } : State).stopped = true := h
  cases e with
  | goodCharacter v => exact ⟨s.trxd, by simp [State.goodCharacter, h, State.not_takesCharacters_of_stopped]⟩
  | badCharacter => exact ⟨s.trxd, by simp [State.badCharacter, h, State.not_takesCharacters_of_stopped]⟩
  | expireGap => exact ⟨s.trxd, by simp [State.expireGap, h]⟩
  | enterBreak => exact ⟨.spacing, by simp [State.enterBreak, stopped]⟩
  | riseToMarking breakEnds => exact ⟨.marking, by simp [State.riseToMarking, stopped]⟩
  | fall falseStart =>
    by_cases low : s.trxd = .spacing
    · exact ⟨s.trxd, if_pos low⟩
    · exact ⟨.spacing, by simp [State.fall, low, stopped]⟩

theorem State.servedIn_of_stopped {s : State} (h : s.stopped = true) (b : BranchId) (st : EngineState) :
    s.servedIn b st = none := by
  simp [State.servedIn, h]

theorem State.EngineEvent.of_stopped {s t : State} {b : BranchId} (h : s.stopped = true) (e : s.EngineEvent b t) : t = s := by
  cases e with
  | takeItem p q => simp [State.takeItem, State.canTake, h]
  | endExchange a p q => simp [State.endExchange, State.servedIn_of_stopped h]
  | timeOutHold => simp [State.timeOutHold, State.servedIn_of_stopped h]
  | expireRetry p q => simp [State.expireRetry, State.servedIn_of_stopped h]
  | endRecovery p q => simp [State.endRecovery, h]
  | expireRecovery => simp [State.expireRecovery, h]
  | endAttempt p q => simp [State.endAttempt, h]
  | endClosingMark => simp [State.endClosingMark, h]

theorem State.take_of_stopped {s : State} (h : s.stopped = true) (names : Frame → Bool) : s.take names = s := by
  rcases s.take_cases names with same | ⟨fr, rest, -, -, ready, -⟩
  · exact same
  · simp [State.admissible, h] at ready

/-- A stopped part keeps every block as it stands. -/
theorem State.Event.of_stopped {s t : State} {c : Instr} (h : s.stopped = true) (supply : ¬ s.SupplyEvent c t)
    (e : s.Event c t) : ∃ l, t = { s with trxd := l } := by
  have same {u : State} (hu : u = s) : ∃ l, u = { s with trxd := l } := ⟨s.trxd, hu⟩
  cases e with
  | link e => exact e.of_stopped h
  | engine b e => exact same (e.of_stopped h)
  | expireWatch i => exact same (by simp [State.expireWatch, h])
  | take names _ => exact same (State.take_of_stopped h names)
  | drain => exact same (by simp [State.drain, State.drainDue, h])
  | expireQuiesce => exact same (by simp [State.expireQuiesce, h])
  | endFrame straps => exact same (by simp [State.endFrame, h])
  | grantIdle => exact same (by simp [State.grantIdle, State.grantDue, h])
  | supply e => exact absurd e supply

/-- Settles O4. -/
theorem stoppedPartDoesNothing : Obligations.StoppedPartDoesNothing := by
  intro c s stopped supply
  obtain ⟨t, ht, event⟩ := exec_event c s
  have noSupply : ¬ s.SupplyEvent c t := by
    intro e
    cases e <;> cases supply
  obtain ⟨l, rfl⟩ := event.of_stopped stopped noSupply
  exact ⟨l, ht⟩

/-! ### One engine at a time -/

/-- Every engine but one is left as it was. -/
def State.OnlyEngine (b : BranchId) (s t : State) : Prop := ∀ c, c ≠ b → t.engine c = s.engine c

theorem State.OnlyEngine.refl (b : BranchId) (s : State) : s.OnlyEngine b s := fun _ _ => rfl

theorem State.OnlyEngine.trans {b : BranchId} {s t u : State} (h : s.OnlyEngine b t) (k : t.OnlyEngine b u) :
    s.OnlyEngine b u := fun c hc => (k c hc).trans (h c hc)

theorem State.OnlyEngine.of_engines {s t : State} (b : BranchId) (h : t.engines = s.engines) : s.OnlyEngine b t :=
  fun c _ => State.engine_eq s t c h

theorem State.setEngine_onlyEngine (s : State) (b : BranchId) (g : Engine) : s.OnlyEngine b (s.setEngine b g) :=
  fun _ hc => s.setEngine_engine_ne g hc

theorem State.carryOutDisable_onlyEngine (s : State) (b : BranchId) : s.OnlyEngine b (s.carryOutDisable b) :=
  fun c hc => by rw [State.carryOutDisable_engine, if_neg hc]

theorem State.endItem_onlyEngine (s : State) (b : BranchId) : s.OnlyEngine b (s.endItem b) :=
  fun c hc => by rw [State.endItem_engine, if_neg hc]

theorem State.fault_onlyEngine (s : State) (b : BranchId) (r : BranchReason) : s.OnlyEngine b (s.fault b r) :=
  fun c hc => by rw [State.fault_engine, if_neg hc]

theorem State.beginTry_onlyEngine (s : State) (b : BranchId) (p q : Bool) : s.OnlyEngine b (s.beginTry b p q) := by
  unfold State.beginTry
  simp only
  split <;> exact s.setEngine_onlyEngine b _

theorem State.endItemWith_onlyEngine (s : State) (b : BranchId) (it : Item) (o : Status) :
    s.OnlyEngine b (s.endItemWith b it o) :=
  (State.OnlyEngine.of_engines b (s.finishMember_engines it o)).trans (State.endItem_onlyEngine _ b)

theorem State.endItemGood_onlyEngine (s : State) (b : BranchId) (it : Item) (v : List Byte) :
    s.OnlyEngine b (s.endItemGood b it v) := by
  unfold State.endItemGood
  simp only
  split
  all_goals
    refine State.OnlyEngine.trans ?_ (State.endItem_onlyEngine _ b)
    exact State.OnlyEngine.of_engines b (by simp)

theorem State.endTry_onlyEngine (s : State) (b : BranchId) (it : Item) (r : TryResult) (p q : Bool) :
    s.OnlyEngine b (s.endTry b it r p q) := by
  have repeated (g : Engine) : s.OnlyEngine b ((s.setEngine b g).beginTry b p q) :=
    (s.setEngine_onlyEngine b g).trans (State.beginTry_onlyEngine _ b p q)
  cases r with
  | good v => exact s.endItemGood_onlyEngine b it v
  | busy =>
    show s.OnlyEngine b (s.busyEnd b it p q)
    unfold State.busyEnd
    simp only
    split
    · split
      · exact repeated _
      · exact s.setEngine_onlyEngine b _
    · exact s.endItemWith_onlyEngine b it _
  | checkFailure =>
    show s.OnlyEngine b (s.checkEnd b it p q)
    unfold State.checkEnd
    simp only
    split
    · exact repeated _
    · exact s.endItemWith_onlyEngine b it _
  | rejected => exact s.endItemWith_onlyEngine b it _
  | noDevice => exact s.endItemWith_onlyEngine b it _

theorem State.endBareRecovery_onlyEngine (s : State) (b : BranchId) : s.OnlyEngine b (s.endBareRecovery b) := by
  unfold State.endBareRecovery
  simp only
  split
  · exact (s.setEngine_onlyEngine b _).trans (State.carryOutDisable_onlyEngine _ b)
  · exact s.setEngine_onlyEngine b _

theorem State.tryAfterRecovery_onlyEngine (s : State) (b : BranchId) (it : Item) :
    s.OnlyEngine b (s.tryAfterRecovery b it) := by
  unfold State.tryAfterRecovery
  simp only
  split
  · exact (State.OnlyEngine.of_engines b (by simp)).trans (State.endItem_onlyEngine _ b)
  · split
    · exact s.endItemWith_onlyEngine b it _
    · exact s.setEngine_onlyEngine b _

/-- The happenings of one engine leave the others alone. -/
theorem State.EngineEvent.onlyEngine {s t : State} {b : BranchId} (e : s.EngineEvent b t) : s.OnlyEngine b t := by
  cases e with
  | takeItem p q =>
    unfold State.takeItem
    split
    · split
      · exact .refl b s
      · refine State.OnlyEngine.trans ?_ (State.beginTry_onlyEngine _ b p q)
        exact (s.setEngine_onlyEngine b _).trans (State.OnlyEngine.of_engines b (State.serveMember_engines _ _))
    · exact .refl b s
  | endExchange a p q =>
    unfold State.endExchange
    split
    · exact .refl b s
    · split
      · exact .refl b s
      · exact s.endTry_onlyEngine b _ _ p q
  | timeOutHold =>
    unfold State.timeOutHold
    split
    · exact .refl b s
    · exact s.setEngine_onlyEngine b _
  | expireRetry p q =>
    unfold State.expireRetry
    split
    · exact .refl b s
    · exact s.beginTry_onlyEngine b p q
  | endRecovery p q =>
    unfold State.endRecovery
    simp only
    split
    · exact .refl b s
    · split
      · split
        · split
          · exact s.tryAfterRecovery_onlyEngine b _
          · exact s.endItemWith_onlyEngine b _ _
          · exact s.endBareRecovery_onlyEngine b
          · exact s.endBareRecovery_onlyEngine b
        · exact s.fault_onlyEngine b _
      all_goals exact .refl b s
  | expireRecovery =>
    unfold State.expireRecovery
    simp only
    split
    · exact s.setEngine_onlyEngine b _
    · exact .refl b s
  | endAttempt p q =>
    unfold State.endAttempt
    simp only
    split
    · split
      · exact (s.setEngine_onlyEngine b _).trans (State.OnlyEngine.of_engines b (State.hand_engines _ _))
      · exact s.setEngine_onlyEngine b _
    · exact .refl b s
  | endClosingMark =>
    unfold State.endClosingMark
    simp only
    split
    · split
      any_goals exact s.setEngine_onlyEngine b _
      all_goals
        split
        · exact (s.setEngine_onlyEngine b _).trans (State.setEngine_onlyEngine _ b _)
        · exact (s.setEngine_onlyEngine b _).trans (State.carryOutDisable_onlyEngine _ b)
    · exact .refl b s

/-- The eight happenings of an engine are its events. -/
theorem engineEvent_of_exec {s t : State} {b : BranchId} {a : TargetAnswer} {p q : Bool} {x : Instr}
    (hx : x ∈ [Instr.engineTakeItem b p q, .exchangeEnd b a p q, .holdTimeout b, .retryTimerExpiry b p q,
      .recoveryEnd b p q, .recoveryTimerExpiry b, .periodicRecoveryEnd b p q, .resetClosingMarkEnd b])
    (h : exec x s = .next t) : s.EngineEvent b t := by
  simp only [List.mem_cons, List.not_mem_nil, or_false] at hx
  rcases hx with rfl | rfl | rfl | rfl | rfl | rfl | rfl | rfl <;> cases h
  · exact .takeItem p q
  · exact .endExchange a p q
  · exact .timeOutHold
  · exact .expireRetry p q
  · exact .endRecovery p q
  · exact .expireRecovery
  · exact .endAttempt p q
  · exact .endClosingMark

/-- Settles O6. -/
theorem enginesActIndependently : Obligations.EnginesActIndependently := by
  intro s t b c a p q other x hx h
  have event := engineEvent_of_exec hx h
  have work := State.onlyWork_closed.engineEvent event
  exact ⟨event.onlyEngine c other, work.rx, work.trxd, work.halt, work.routes, work.tx, work.supply, work.straps, work.config,
    work.grant, work.roundSet⟩

/-! ### The head that waits -/

theorem State.lowestFree_eq_none_iff (s : State) : s.lowestFree = none ↔ ∀ i, (s.entry i).inUse = true := by
  simp [State.lowestFree]

theorem classOf_of_data {c : Byte} (h : c ∈ [0x01#8, 0x02#8, 0x03#8, 0x04#8]) : classOf c = .data := by
  simp only [List.mem_cons, List.not_mem_nil, or_false] at h
  rcases h with rfl | rfl | rfl | rfl <;> rfl

/-- The three conditions of R45 under which a head waits. -/
theorem State.not_admissible {s : State} {kind : Byte}
    (h : s.halt = true ∨ (∀ i, (s.entry i).inUse = true) ∨
      (kind ∈ [0x01#8, 0x02#8, 0x03#8, 0x04#8] ∧ (14 ≤ s.table.dataInUse ∨ s.routes.pendingCommit.isSome = true))) :
    s.admissible kind = false := by
  rcases h with halted | full | ⟨data, share | waits⟩
  · simp [State.admissible, halted]
  · simp [State.admissible, (s.lowestFree_eq_none_iff).mpr full]
  · simp [State.admissible, classOf_of_data data, Config.dataEntries, Nat.not_lt.mpr share]
  · simp [State.admissible, classOf_of_data data, Option.isNone_eq_false_iff.mpr waits]

theorem State.take_of_not_admissible {s : State} {fr : Frame} {rest : List Frame} (head : s.rx.inbound = fr :: rest)
    (h : s.admissible fr.kind = false) (names : Frame → Bool) : s.take names = s := by
  simp [State.take, head, h]

/-- Settles O17. -/
theorem waitingHeadStaysUnchanged : Obligations.WaitingHeadStaysUnchanged := by
  intro s fr rest head waits c hc
  have stays := State.take_of_not_admissible head (State.not_admissible waits)
  simp only [List.mem_cons, List.not_mem_nil, or_false] at hc
  rcases hc with rfl | rfl | rfl | rfl | rfl | rfl | rfl | rfl | rfl | rfl | rfl | rfl | rfl | rfl | rfl | rfl | rfl | rfl |
    rfl <;> exact congrArg Host.Outcome.next (stays _)

end Sys2Proof.Machine
end

section
/-! PROOFS. The engines (Section 4): every step keeps what an engine holds, and what it does on its wire, in accord with its state. -/

namespace Sys2Proof.Machine

/-! ### Engines that fit their state -/

/-- An engine of a part that is not stopped: its fields and its wire go with its state. -/
structure Engine.Fit (g : Engine) : Prop where
  sound : g.Sound
  wire : g.WireSound

/-- The fields that decide whether an engine fits its state: all but the queue, the two counts and the last fault reason. -/
structure Engine.SameShape (g k : Engine) : Prop where
  state : k.state = g.state
  disablePending : k.disablePending = g.disablePending
  config : k.config = g.config
  inService : k.inService.isSome = g.inService.isSome
  retryTimer : k.retryTimer.isSome = g.retryTimer.isSome
  recoveryTimer : k.recoveryTimer.isSome = g.recoveryTimer.isSome
  copy : k.copy.isSome = g.copy.isSome
  wire : k.wire = g.wire

theorem Option.eq_none_iff_of_isSome_eq {α β : Type} {x : Option α} {y : Option β} (h : x.isSome = y.isSome) :
    x = none ↔ y = none := by
  rw [← Option.not_isSome_iff_eq_none, ← Option.not_isSome_iff_eq_none, h]

theorem Engine.Sound.of_shape {g k : Engine} (h : g.Sound) (e : g.SameShape k) : k.Sound := by
  have inService := Option.eq_none_iff_of_isSome_eq e.inService
  have recoveryTimer := Option.eq_none_iff_of_isSome_eq e.recoveryTimer
  refine ⟨?_, ?_, ?_, ?_, ?_, ?_, ?_⟩
  · rw [e.state, e.inService]
    exact h.served
  · rw [e.state, inService]
    exact h.unserved
  · rw [e.disablePending, e.state]
    exact h.flag
  · rw [e.retryTimer, e.state]
    exact h.retry
  · rw [e.recoveryTimer, e.state]
    exact h.recovery
  · rw [e.wire, e.state, recoveryTimer]
    exact h.attempt
  · rw [e.config]
    exact h.config

theorem Engine.WireSound.of_shape {g k : Engine} (h : g.WireSound) (e : g.SameShape k) : k.WireSound := by
  have inService := Option.eq_none_iff_of_isSome_eq e.inService
  have recoveryTimer := Option.eq_none_iff_of_isSome_eq e.recoveryTimer
  refine ⟨?_, ?_, ?_, ?_, ?_, ?_⟩
  · rw [e.state, e.wire, inService, e.inService]
    exact h.exchange
  · rw [e.state, e.wire, inService]
    exact h.recovery
  · rw [e.state, e.wire]
    exact h.rest
  · rw [e.state, e.wire]
    exact h.retryWait
  · rw [e.state, e.wire, recoveryTimer, e.recoveryTimer]
    exact h.faulted
  · rw [e.copy, e.wire]
    exact h.copy

theorem Engine.Fit.of_shape {g k : Engine} (h : g.Fit) (e : g.SameShape k) : k.Fit := ⟨h.sound.of_shape e, h.wire.of_shape e⟩

/-! ### What each state asks for -/

theorem Engine.Sound.retryTimer_eq_none {g : Engine} (h : g.Sound) (hs : g.state ≠ .retryWait) : g.retryTimer = none := by
  by_contra running
  exact hs (h.retry.mp (Option.isSome_iff_ne_none.mpr running))

theorem Engine.Sound.recoveryTimer_eq_none {g : Engine} (h : g.Sound) (hs : g.state ≠ .faulted) :
    g.recoveryTimer = none := by
  by_contra running
  exact hs (h.recovery (Option.isSome_iff_ne_none.mpr running))

theorem Engine.Sound.disablePending_eq_false {g : Engine} (h : g.Sound) (hs : g.state ≠ .exchange)
    (hs' : g.state ≠ .recovery) : g.disablePending = false := by
  by_contra pending
  rcases h.flag (by simpa using pending) with state | state
  · exact hs state
  · exact hs' state

/-- An engine that is DISABLED or IDLE, with the lines released or a reset's closing mark on them. -/
theorem Engine.fit_rest {g : Engine} (state : g.state = .disabled ∨ g.state = .idle) (flag : g.disablePending = false)
    (inService : g.inService = none) (retryTimer : g.retryTimer = none) (recoveryTimer : g.recoveryTimer = none)
    (config : g.config.inRange = true) (copy : g.copy = none) (wire : g.wire = .released ∨ g.wire = .closingMark) :
    g.Fit := by
  constructor <;> constructor <;> rcases state with state | state <;> rcases wire with wire | wire <;>
    simp [state, wire, flag, inService, retryTimer, recoveryTimer, config, copy]

/-- An engine with an exchange or a recovery sequence of its item on the wire. -/
theorem Engine.fit_try {g : Engine} {it : Item}
    (state : (g.state = .exchange ∧ ∃ cells, g.wire = .exchange cells) ∨
      (g.state = .recovery ∧ ∃ cause, g.wire = .recovery cause ∧ cause ≠ .softReset))
    (inService : g.inService = some it) (retryTimer : g.retryTimer = none) (recoveryTimer : g.recoveryTimer = none)
    (config : g.config.inRange = true) (copy : g.copy.isSome = true) : g.Fit := by
  constructor <;> constructor <;> rcases state with ⟨state, cells, wire⟩ | ⟨state, cause, wire, causes⟩ <;>
    simp_all

/-- An engine in RETRY_WAIT. -/
theorem Engine.fit_retryWait {g : Engine} {it : Item} (state : g.state = .retryWait) (flag : g.disablePending = false)
    (inService : g.inService = some it) (retryTimer : g.retryTimer.isSome = true) (recoveryTimer : g.recoveryTimer = none)
    (config : g.config.inRange = true) (copy : g.copy = none) (wire : g.wire = .released) : g.Fit := by
  constructor <;> constructor <;>
    simp [state, wire, flag, inService, retryTimer, recoveryTimer, config, copy]

/-- A FAULTED engine, between two attempts or in one. -/
theorem Engine.fit_faulted {g : Engine} (state : g.state = .faulted) (flag : g.disablePending = false)
    (inService : g.inService = none) (retryTimer : g.retryTimer = none) (config : g.config.inRange = true)
    (attempt : (g.wire = .attempt ∧ g.recoveryTimer = none ∧ g.copy.isSome = true) ∨
      (g.wire = .released ∧ g.recoveryTimer.isSome = true ∧ g.copy = none)) : g.Fit := by
  constructor <;> constructor <;> rcases attempt with ⟨wire, timer, copy⟩ | ⟨wire, timer, copy⟩ <;>
    simp [state, wire, flag, inService, retryTimer, timer, config, copy]

/-- A recovery of a SOFT reset, without an item. -/
theorem Engine.fit_softReset {g : Engine} (state : g.state = .recovery) (wire : g.wire = .recovery .softReset)
    (inService : g.inService = none) (retryTimer : g.retryTimer = none) (recoveryTimer : g.recoveryTimer = none)
    (config : g.config.inRange = true) (copy : g.copy.isSome = true) : g.Fit := by
  constructor <;> constructor <;> simp [state, wire, inService, retryTimer, recoveryTimer, config, copy]

/-- An engine that still forms the closing mark of a FULL reset (log entry 9). -/
theorem Engine.fit_closingMark {g : Engine} (state : g.state = .exchange ∨ g.state = .recovery)
    (wire : g.wire = .closingMark) (inService : g.inService = none) (retryTimer : g.retryTimer = none)
    (recoveryTimer : g.recoveryTimer = none) (config : g.config.inRange = true) (copy : g.copy = none) : g.Fit := by
  constructor <;> constructor <;> rcases state with state | state <;>
    simp [state, wire, inService, retryTimer, recoveryTimer, config, copy]

theorem BranchConfig.reset_inRange : BranchConfig.reset.inRange = true := by decide

theorem Engine.reset_fit : Engine.reset.Fit :=
  Engine.fit_rest (.inl rfl) rfl rfl rfl rfl BranchConfig.reset_inRange rfl (.inl rfl)

/-! ### States whose engines fit -/

/-- Every engine fits its state. -/
def State.EnginesFit (s : State) : Prop := ∀ b, (s.engine b).Fit

theorem State.EnginesFit.of_engines {s t : State} (h : s.EnginesFit) (e : t.engines = s.engines) : t.EnginesFit :=
  fun b => by rw [State.engine_eq s t b e]; exact h b

theorem State.EnginesFit.setEngine {s : State} (h : s.EnginesFit) {b : BranchId} {g : Engine} (hg : g.Fit) :
    (s.setEngine b g).EnginesFit := by
  intro c
  rw [State.setEngine_engine]
  split
  · exact hg
  · exact h c

/-- One engine is replaced by one that fits, the others stay. -/
theorem State.EnginesFit.of_onlyEngine {s t : State} (h : s.EnginesFit) {b : BranchId} (e : s.OnlyEngine b t)
    (hb : (t.engine b).Fit) : t.EnginesFit := by
  intro c
  by_cases hc : c = b
  · rwa [hc]
  · rw [e c hc]
    exact h c

theorem State.EnginesFit.foldl {α : Type} {f : State → α → State}
    (hf : ∀ (s : State) a, s.EnginesFit → (f s a).EnginesFit) :
    ∀ (l : List α) (s : State), s.EnginesFit → (l.foldl f s).EnginesFit
  | [], _, h => h
  | a :: l, s, h => State.EnginesFit.foldl hf l _ (hf s a h)

/-- The end of an item leaves IDLE or DISABLED. -/
theorem State.EnginesFit.endItem {s : State} (h : s.EnginesFit) {b : BranchId}
    (retryTimer : (s.engine b).retryTimer = none) (recoveryTimer : (s.engine b).recoveryTimer = none) :
    (s.endItem b).EnginesFit := by
  refine h.of_onlyEngine (s.endItem_onlyEngine b) ?_
  have config := (h b).sound.config
  rw [State.endItem_engine, if_pos rfl]
  split
  · exact Engine.fit_rest (.inl rfl) rfl rfl rfl rfl config rfl (.inl rfl)
  · rename_i calm
    exact Engine.fit_rest (.inr rfl) (by simpa using calm) rfl retryTimer recoveryTimer config rfl (.inl rfl)

/-- A carried-out disable leaves DISABLED. -/
theorem State.carryOutDisable_fit {s : State} {b : BranchId} (inService : (s.engine b).inService = none)
    (config : (s.engine b).config.inRange = true) : ((s.carryOutDisable b).engine b).Fit := by
  rw [State.carryOutDisable_engine, if_pos rfl]
  refine Engine.fit_rest (.inl rfl) rfl inService rfl rfl config rfl ?_
  simp only
  split
  · exact .inr rfl
  · exact .inl rfl

/-- A try that begins leaves EXCHANGE or RECOVERY. -/
theorem State.beginTry_fit {s : State} {b : BranchId} {it : Item} (inService : (s.engine b).inService = some it)
    (recoveryTimer : (s.engine b).recoveryTimer = none) (config : (s.engine b).config.inRange = true) (p q : Bool) :
    ((s.beginTry b p q).engine b).Fit := by
  unfold State.beginTry
  simp only
  split
  · rw [State.setEngine_engine_self]
    exact Engine.fit_try (.inl ⟨rfl, _, rfl⟩) inService rfl recoveryTimer config rfl
  · rw [State.setEngine_engine_self]
    exact Engine.fit_try (.inr ⟨rfl, _, rfl, by decide⟩) inService rfl recoveryTimer config rfl

/-! ### The happenings of one engine -/

theorem State.servedIn_eq_some {s : State} {b : BranchId} {st : EngineState} {it : Item} (h : s.servedIn b st = some it) :
    s.stopped = false ∧ (s.engine b).state = st ∧ (s.engine b).inService = some it := by
  unfold State.servedIn at h
  split at h
  · rename_i conditions
    simp only [Bool.and_eq_true, Bool.not_eq_true', beq_iff_eq] at conditions
    exact ⟨conditions.1, conditions.2, h⟩
  · cases h

theorem State.EnginesFit.takeItem {s : State} (h : s.EnginesFit) (b : BranchId) (p q : Bool) :
    (s.takeItem b p q).EnginesFit := by
  unfold State.takeItem
  split
  · rename_i can
    have idle : (s.engine b).state = .idle := by
      simp only [State.canTake, Bool.and_eq_true, beq_iff_eq] at can
      exact can.1.1.2
    split
    · exact h
    · rename_i it rest _
      set g : Engine := { s.engine b with queue := rest, inService := some it, busyUsed := 0, checkUsed := 0 } with hg
      have here : ((s.setEngine b g).serveMember it).engine b = g := by
        rw [State.engine_eq _ _ b (State.serveMember_engines _ it), State.setEngine_engine_self]
      have begun : (((s.setEngine b g).serveMember it).beginTry b p q).EnginesFit := by
        refine State.EnginesFit.of_onlyEngine h (b := b) ?_ (State.beginTry_fit (it := it) ?_ ?_ ?_ p q)
        · refine State.OnlyEngine.trans ?_ (State.beginTry_onlyEngine _ b p q)
          exact (s.setEngine_onlyEngine b g).trans (State.OnlyEngine.of_engines b (State.serveMember_engines _ _))
        · rw [here]
        · rw [here]
          exact (h b).sound.recoveryTimer_eq_none (by rw [idle]; decide)
        · rw [here]
          exact (h b).sound.config
      exact begun
  · exact h

/-- The engine of a try that ended. -/
theorem Engine.Fit.exchange_timers {g : Engine} (h : g.Fit) (hs : g.state = .exchange ∨ g.state = .recovery) :
    g.retryTimer = none ∧ g.recoveryTimer = none :=
  ⟨h.sound.retryTimer_eq_none (by rcases hs with hs | hs <;> rw [hs] <;> decide),
    h.sound.recoveryTimer_eq_none (by rcases hs with hs | hs <;> rw [hs] <;> decide)⟩

theorem State.EnginesFit.endItemOf {s u : State} (h : s.EnginesFit) {b : BranchId} (hu : u.engines = s.engines)
    (hs : (s.engine b).state = .exchange ∨ (s.engine b).state = .recovery) : (u.endItem b).EnginesFit := by
  obtain ⟨retryTimer, recoveryTimer⟩ := (h b).exchange_timers hs
  have here := State.engine_eq s u b hu
  exact (h.of_engines hu).endItem (by rwa [here]) (by rwa [here])

theorem State.EnginesFit.beginTryOf {s : State} (h : s.EnginesFit) {b : BranchId} {it : Item} {g : Engine}
    (inService : g.inService = some it) (recoveryTimer : g.recoveryTimer = none) (config : g.config.inRange = true)
    (p q : Bool) : ((s.setEngine b g).beginTry b p q).EnginesFit := by
  refine h.of_onlyEngine ((s.setEngine_onlyEngine b g).trans (State.beginTry_onlyEngine _ b p q)) ?_
  apply State.beginTry_fit (it := it) <;> rw [State.setEngine_engine_self] <;> assumption

theorem State.EnginesFit.endTry {s : State} (h : s.EnginesFit) {b : BranchId} {it : Item}
    (state : (s.engine b).state = .exchange) (inService : (s.engine b).inService = some it) (r : TryResult) (p q : Bool) :
    (s.endTry b it r p q).EnginesFit := by
  have config := (h b).sound.config
  obtain ⟨retryTimer, recoveryTimer⟩ := (h b).exchange_timers (.inl state)
  have ended (o : Status) : (s.endItemWith b it o).EnginesFit := h.endItemOf (s.finishMember_engines it o) (.inl state)
  cases r with
  | good v =>
    show (s.endItemGood b it v).EnginesFit
    unfold State.endItemGood
    simp only
    split
    all_goals exact h.endItemOf (by simp) (.inl state)
  | busy =>
    show (s.busyEnd b it p q).EnginesFit
    unfold State.busyEnd
    simp only
    split
    · rename_i again
      have calm : (s.engine b).disablePending = false := by
        simp only [State.noRepeat, Bool.and_eq_true, Bool.not_eq_true', Bool.or_eq_false_iff] at again
        exact again.1.2
      split
      · exact h.beginTryOf (by exact inService) (by exact recoveryTimer) (by exact config) p q
      · exact h.setEngine (Engine.fit_retryWait rfl calm inService rfl recoveryTimer config rfl rfl)
    · exact ended .busy
  | checkFailure =>
    show (s.checkEnd b it p q).EnginesFit
    unfold State.checkEnd
    simp only
    split
    · exact h.beginTryOf (by exact inService) (by exact recoveryTimer) (by exact config) p q
    · exact ended .checkError
  | rejected => exact ended .rejected
  | noDevice => exact ended .noDevice

/-- The wire of an engine in EXCHANGE with an item in service, and its copy. -/
theorem Engine.Fit.copy_of_exchange {g : Engine} (h : g.Fit) (state : g.state = .exchange) {it : Item}
    (inService : g.inService = some it) : g.copy.isSome = true := by
  rcases h.wire.exchange state with ⟨-, unserved⟩ | ⟨wire, -⟩
  · rw [inService] at unserved
    cases unserved
  · exact h.wire.copy.mpr (.inl wire)

theorem State.EnginesFit.tryAfterRecovery {s : State} (h : s.EnginesFit) {b : BranchId} {it : Item} {cause : RecoveryCause}
    (state : (s.engine b).state = .recovery) (wire : (s.engine b).wire = .recovery cause)
    (inService : (s.engine b).inService = some it) : (s.tryAfterRecovery b it).EnginesFit := by
  obtain ⟨retryTimer, recoveryTimer⟩ := (h b).exchange_timers (.inr state)
  unfold State.tryAfterRecovery
  simp only
  split
  · exact h.endItemOf (by simp) (.inr state)
  · split
    · exact h.endItemOf (s.finishMember_engines it _) (.inr state)
    · exact h.setEngine (Engine.fit_try (.inl ⟨rfl, _, rfl⟩) inService retryTimer recoveryTimer (h b).sound.config
        ((h b).wire.copy.mpr (.inr (.inl ⟨cause, wire⟩))))

theorem State.EnginesFit.endBareRecovery {s : State} (h : s.EnginesFit) {b : BranchId}
    (state : (s.engine b).state = .recovery) : (s.endBareRecovery b).EnginesFit := by
  have config := (h b).sound.config
  obtain ⟨retryTimer, recoveryTimer⟩ := (h b).exchange_timers (.inr state)
  unfold State.endBareRecovery
  simp only
  split
  · refine h.of_onlyEngine ((s.setEngine_onlyEngine b _).trans (State.carryOutDisable_onlyEngine _ b)) ?_
    apply State.carryOutDisable_fit <;> rw [State.setEngine_engine_self]
    exact config
  · rename_i calm
    refine h.setEngine (Engine.fit_rest ?_ (by simpa using calm) rfl retryTimer recoveryTimer config rfl (.inl rfl))
    cases (s.engine b).config.enabled
    · exact .inl rfl
    · exact .inr rfl

theorem State.EnginesFit.fault {s : State} (h : s.EnginesFit) (b : BranchId) (r : BranchReason) :
    (s.fault b r).EnginesFit := by
  have config := (h b).sound.config
  refine h.of_onlyEngine (s.fault_onlyEngine b r) ?_
  rw [State.fault_engine, if_pos rfl]
  unfold Engine.afterFault
  simp only
  split
  · exact Engine.fit_rest (.inl rfl) rfl rfl rfl rfl config rfl (.inl rfl)
  · rename_i calm
    exact Engine.fit_faulted rfl (by simpa using calm) rfl rfl config (.inr ⟨rfl, rfl, rfl⟩)

theorem State.EnginesFit.endRecovery {s : State} (h : s.EnginesFit) (b : BranchId) (p q : Bool) :
    (s.endRecovery b p q).EnginesFit := by
  unfold State.endRecovery
  simp only
  split
  · exact h
  · rename_i runs
    have state : (s.engine b).state = .recovery := by
      simp only [Bool.or_eq_true, bne_iff_ne, ne_eq, not_or, not_not] at runs
      exact runs.2
    split
    · rename_i cause wire
      split
      · split
        · rename_i it inService
          exact h.tryAfterRecovery state wire inService
        · exact h.endItemOf (s.finishMember_engines _ _) (.inr state)
        · exact h.endBareRecovery state
        · exact h.endBareRecovery state
      · exact h.fault b _
    all_goals exact h

theorem State.EnginesFit.expireRecovery {s : State} (h : s.EnginesFit) (b : BranchId) : (s.expireRecovery b).EnginesFit := by
  unfold State.expireRecovery
  simp only
  split
  · rename_i due
    have faulted : (s.engine b).state = .faulted := by
      simp only [Bool.and_eq_true, beq_iff_eq] at due
      exact due.1.2
    refine h.setEngine (Engine.fit_faulted faulted ?_ ?_ ?_ (h b).sound.config (.inl ⟨rfl, rfl, rfl⟩))
    · exact (h b).sound.disablePending_eq_false (by rw [faulted]; decide) (by rw [faulted]; decide)
    · exact (h b).sound.unserved (.inr (.inr faulted))
    · exact (h b).sound.retryTimer_eq_none (by rw [faulted]; decide)
  · exact h

theorem State.EnginesFit.endAttempt {s : State} (h : s.EnginesFit) (b : BranchId) (p q : Bool) :
    (s.endAttempt b p q).EnginesFit := by
  unfold State.endAttempt
  simp only
  split
  · rename_i ends
    simp only [Bool.and_eq_true, beq_iff_eq] at ends
    obtain ⟨⟨-, faulted⟩, attempt⟩ := ends
    have flag := (h b).sound.disablePending_eq_false (by rw [faulted]; decide) (by rw [faulted]; decide)
    have inService := (h b).sound.unserved (.inr (.inr faulted))
    have retryTimer := (h b).sound.retryTimer_eq_none (by rw [faulted]; decide)
    have recoveryTimer := ((h b).sound.attempt attempt).2
    have config := (h b).sound.config
    split
    · have idle : Engine.Fit { s.engine b with state := .idle, copy := none, wire := .released } :=
        Engine.fit_rest (.inr rfl) flag inService retryTimer recoveryTimer config rfl (.inl rfl)
      exact (h.setEngine (b := b) idle).of_engines (State.hand_engines _ _)
    · exact h.setEngine (Engine.fit_faulted faulted flag inService retryTimer config (.inr ⟨rfl, rfl, rfl⟩))
  · exact h

/-- An engine whose wire is a reset's closing mark holds no item and no copy. -/
theorem Engine.Fit.of_closingMark {g : Engine} (h : g.Fit) (wire : g.wire = .closingMark) :
    g.inService = none ∧ g.copy = none ∧ g.retryTimer = none ∧ g.recoveryTimer = none := by
  have copy : g.copy = none := by
    by_contra held
    have active := h.wire.copy.mp (Option.isSome_iff_ne_none.mpr held)
    simp [wire] at active
  have retry : g.state ≠ .retryWait := fun hs => by
    have released := h.wire.retryWait hs
    simp [wire] at released
  have faulted : g.state ≠ .faulted := fun hs => by
    have active := h.wire.faulted hs
    simp [wire] at active
  refine ⟨?_, copy, h.sound.retryTimer_eq_none retry, h.sound.recoveryTimer_eq_none faulted⟩
  cases hs : g.state with
  | disabled => exact h.sound.unserved (.inl hs)
  | idle => exact h.sound.unserved (.inr (.inl hs))
  | exchange => simpa [wire] using h.wire.exchange hs
  | recovery => simpa [wire] using h.wire.recovery hs
  | retryWait => exact absurd hs retry
  | faulted => exact absurd hs faulted

theorem State.EnginesFit.endClosingMark {s : State} (h : s.EnginesFit) (b : BranchId) :
    (s.endClosingMark b).EnginesFit := by
  unfold State.endClosingMark
  simp only
  split
  · rename_i ends
    simp only [Bool.and_eq_true, beq_iff_eq] at ends
    obtain ⟨inService, copy, retryTimer, recoveryTimer⟩ := (h b).of_closingMark ends.2
    have config := (h b).sound.config
    have rest (hs : (s.engine b).state = .disabled ∨ (s.engine b).state = .idle) :
        (s.setEngine b { s.engine b with wire := .released }).EnginesFit := by
      refine h.setEngine (Engine.fit_rest hs ?_ inService retryTimer recoveryTimer config copy (.inl rfl))
      exact (h b).sound.disablePending_eq_false (by rcases hs with hs | hs <;> rw [hs] <;> decide)
        (by rcases hs with hs | hs <;> rw [hs] <;> decide)
    have active : ((if (s.engine b).config.enabled && !(s.engine b).disablePending then
        (s.setEngine b { s.engine b with wire := .released }).setEngine b { s.engine b with state := .idle, wire := .released }
        else (s.setEngine b { s.engine b with wire := .released }).carryOutDisable b) : State).EnginesFit := by
      split
      · rename_i enabled
        rw [State.setEngine_setEngine]
        refine h.setEngine (Engine.fit_rest (.inr rfl) ?_ inService retryTimer recoveryTimer config copy (.inl rfl))
        simp only [Bool.and_eq_true, Bool.not_eq_true'] at enabled
        exact enabled.2
      · refine h.of_onlyEngine ((s.setEngine_onlyEngine b _).trans (State.carryOutDisable_onlyEngine _ b)) ?_
        apply State.carryOutDisable_fit <;> rw [State.setEngine_engine_self] <;> assumption
    split
    · exact active
    · exact active
    · rename_i hs
      exact rest (.inl hs)
    · rename_i hs
      exact rest (.inr hs)
    · rename_i hs
      exact absurd (ends.2.symm.trans ((h b).wire.retryWait hs)) (by decide)
    · rename_i hs
      have wire := (h b).wire.faulted hs
      simp [ends.2] at wire
  · exact h

theorem State.EngineEvent.enginesFit {s t : State} {b : BranchId} (h : s.EnginesFit) (e : s.EngineEvent b t) :
    t.EnginesFit := by
  cases e with
  | takeItem p q => exact h.takeItem b p q
  | endExchange a p q =>
    unfold State.endExchange
    split
    · exact h
    · rename_i it served
      obtain ⟨-, state, inService⟩ := State.servedIn_eq_some served
      split
      · exact h
      · exact h.endTry state inService _ p q
  | timeOutHold =>
    unfold State.timeOutHold
    split
    · exact h
    · rename_i it served
      obtain ⟨-, state, inService⟩ := State.servedIn_eq_some served
      obtain ⟨retryTimer, recoveryTimer⟩ := (h b).exchange_timers (.inl state)
      exact h.setEngine (Engine.fit_try (.inr ⟨rfl, _, rfl, by decide⟩) inService retryTimer recoveryTimer
        (h b).sound.config ((h b).copy_of_exchange state inService))
  | expireRetry p q =>
    unfold State.expireRetry
    split
    · exact h
    · rename_i it served
      obtain ⟨-, state, inService⟩ := State.servedIn_eq_some served
      exact h.of_onlyEngine (s.beginTry_onlyEngine b p q) (State.beginTry_fit inService
        ((h b).sound.recoveryTimer_eq_none (by rw [state]; decide)) (h b).sound.config p q)
  | endRecovery p q => exact h.endRecovery b p q
  | expireRecovery => exact h.expireRecovery b
  | endAttempt p q => exact h.endAttempt b p q
  | endClosingMark => exact h.endClosingMark b

/-! ### Admission -/

/-- A queue that changes leaves an engine that fits. -/
theorem State.EnginesFit.setQueue {s : State} (h : s.EnginesFit) (b : BranchId) (l : List Item) :
    (s.setEngine b { s.engine b with queue := l }).EnginesFit :=
  h.setEngine ((h b).of_shape ⟨rfl, rfl, rfl, rfl, rfl, rfl, rfl, rfl⟩)

theorem State.EnginesFit.appendItem {s : State} (h : s.EnginesFit) (b : BranchId) (it : Item) :
    (s.appendItem b it).EnginesFit := h.setQueue b _

theorem State.EnginesFit.expireWatch {s : State} (h : s.EnginesFit) (i : EntryId) : (s.expireWatch i).EnginesFit := by
  unfold State.expireWatch
  split
  · split
    · exact h
    · simp only
      exact State.EnginesFit.appendItem (h.of_engines rfl) _ _
  · exact h

@[simp] theorem State.refuse_engines (s : State) (i : EntryId) (st : Status) : (s.refuse i st).engines = s.engines := by
  unfold State.refuse
  split
  · exact s.endPosted_engines i st
  · rfl

theorem State.EnginesFit.resolve {s : State} (h : s.EnginesFit) (i : EntryId) (k : Kind) (a : Half) (n : Nat)
    (d : List Byte) (w : Option WatchRecord) : (s.resolve i k a n d w).EnginesFit := by
  unfold State.resolve
  simp only
  split
  · exact h.of_engines (by simp)
  · split
    · unfold State.placeGroup
      simp only
      refine State.EnginesFit.of_engines ?_ (State.settle_engines _ i)
      refine State.EnginesFit.foldl (fun t x ht => ?_) _ _ (h.of_engines (by simp))
      unfold State.placeMember
      split
      · exact ht.appendItem _ _
      · exact ht
    · unfold State.placeDirect
      simp only
      split
      · exact State.EnginesFit.appendItem (h.of_engines (by simp)) _ _
      · exact h.of_engines (by simp)
    · exact h.of_engines (by simp)

theorem State.EnginesFit.disable {s : State} (h : s.EnginesFit) (b : BranchId) : (s.disable b).EnginesFit := by
  have config := (h b).sound.config
  have carried (hs : (s.engine b).state = .disabled ∨ (s.engine b).state = .idle ∨ (s.engine b).state = .faulted) :
      (s.carryOutDisable b).EnginesFit :=
    h.of_onlyEngine (s.carryOutDisable_onlyEngine b) (State.carryOutDisable_fit ((h b).sound.unserved hs) config)
  have flagged (hs : (s.engine b).state = .exchange ∨ (s.engine b).state = .recovery) :
      (s.setEngine b { s.engine b with disablePending := true }).EnginesFit := by
    obtain ⟨⟨served, unserved, flag, retry, recovery, attempt, config⟩, wire⟩ := h b
    exact h.setEngine ⟨⟨served, unserved, fun _ => hs, retry, recovery, attempt, config⟩,
      ⟨wire.exchange, wire.recovery, wire.rest, wire.retryWait, wire.faulted, wire.copy⟩⟩
  unfold State.disable
  simp only
  split
  · rename_i hs
    exact flagged (.inl hs)
  · rename_i hs
    exact flagged (.inr hs)
  · refine h.of_onlyEngine (b := b) ?_ ?_
    · refine State.OnlyEngine.trans (fun c hc => ?_) (State.carryOutDisable_onlyEngine _ b)
      rw [State.dismiss_engine, if_neg hc, State.setEngine_engine_ne _ _ hc]
    · apply State.carryOutDisable_fit <;> rw [State.dismiss_engine, if_pos rfl, State.setEngine_engine_self]
      exact config
  · rename_i hs
    exact carried (.inr (.inl hs))
  · rename_i hs
    exact carried (.inl hs)
  · rename_i hs
    exact carried (.inr (.inr hs))

theorem State.EnginesFit.enable {s : State} (h : s.EnginesFit) (b : BranchId) : (s.enable b).EnginesFit := by
  unfold State.enable
  simp only
  by_cases disabled : (s.engine b).state = .disabled
  · rw [if_pos disabled]
    have sound := (h b).sound
    refine h.setEngine (Engine.fit_rest (.inr rfl) rfl (sound.unserved (.inl disabled)) ?_ ?_ sound.config ?_
      ((h b).wire.rest (.inl disabled)))
    · exact sound.retryTimer_eq_none (by rw [disabled]; decide)
    · exact sound.recoveryTimer_eq_none (by rw [disabled]; decide)
    · by_contra held
      have active := (h b).wire.copy.mp (Option.isSome_iff_ne_none.mpr held)
      rcases (h b).wire.rest (.inl disabled) with wire | wire <;> simp [wire] at active
  · rw [if_neg disabled]
    obtain ⟨⟨served, unserved, flag, retry, recovery, attempt, config⟩, wire⟩ := h b
    exact h.setEngine ⟨⟨served, unserved, nofun, retry, recovery, attempt, config⟩,
      ⟨wire.exchange, wire.recovery, wire.rest, wire.retryWait, wire.faulted, wire.copy⟩⟩

theorem State.EnginesFit.reconfigure {s : State} (h : s.EnginesFit) (b : BranchId) {c : BranchConfig}
    (range : c.inRange = true) : (s.reconfigure b c).EnginesFit := by
  have configured : (s.setEngine b { s.engine b with config := c }).EnginesFit := by
    obtain ⟨⟨served, unserved, flag, retry, recovery, attempt, -⟩, wire⟩ := h b
    exact h.setEngine ⟨⟨served, unserved, flag, retry, recovery, attempt, range⟩,
      ⟨wire.exchange, wire.recovery, wire.rest, wire.retryWait, wire.faulted, wire.copy⟩⟩
  unfold State.reconfigure
  simp only
  split
  · exact configured.enable b
  · exact configured.disable b

theorem State.EnginesFit.cancelMember {s : State} (h : s.EnginesFit) (i : EntryId) (x : Member × Nat) :
    (State.cancelMember i s x).EnginesFit := by
  unfold State.cancelMember
  simp only
  split
  · exact h
  · exact h
  · exact (h.setQueue _ _).of_engines rfl
  · split
    · rename_i hs
      have sound := (h x.1.branch).sound
      refine State.EnginesFit.of_engines (s := s.endRetryWait x.1.branch) (h.setEngine ?_) rfl
      refine Engine.fit_rest (.inr rfl) ?_ rfl rfl ?_ sound.config ?_ (.inl ((h x.1.branch).wire.retryWait hs))
      · exact sound.disablePending_eq_false (by rw [hs]; decide) (by rw [hs]; decide)
      · exact sound.recoveryTimer_eq_none (by rw [hs]; decide)
      · by_contra held
        have active := (h x.1.branch).wire.copy.mp (Option.isSome_iff_ne_none.mpr held)
        simp [(h x.1.branch).wire.retryWait hs] at active
    · exact h.of_engines rfl

theorem State.EnginesFit.cancel {s : State} (h : s.EnginesFit) (i : EntryId) (tag : Byte) : (s.cancel i tag).EnginesFit := by
  unfold State.cancel
  split
  · exact h.of_engines rfl
  · rename_i j _
    refine State.EnginesFit.of_engines (s := (s.cancelTarget j).1) ?_ rfl
    unfold State.cancelTarget
    split
    · exact (State.EnginesFit.foldl (fun t x ht => ht.cancelMember j x) _ _ h).of_engines (State.settle_engines _ j)
    · exact (State.EnginesFit.foldl (fun t x ht => ht.cancelMember j x) _ _ h).of_engines (State.settle_engines _ j)
    · exact h.of_engines (by simp)
    all_goals exact h

theorem State.commit_engines (s : State) (i : EntryId) (g : Half) (m : CommitMode) (t : Half) :
    (s.commit i g m t).engines = s.engines := by
  unfold State.commit
  simp only
  repeat' split
  all_goals rfl

theorem Frame.wellFormed_of_request {fr : Frame} {r : Request} (h : fr.request = some r) : r.wellFormed = true :=
  (requestsAndTheirFramesCorrespond.2 fr r h).1

theorem State.EnginesFit.execute {s : State} (h : s.EnginesFit) (i : EntryId) {r : Request} (range : r.wellFormed = true) :
    (s.execute i r).EnginesFit := by
  cases r with
  | read a n => exact h.resolve i _ _ _ _ _
  | write p a d => exact h.resolve i _ _ _ _ _
  | watch a iv li mask pat => exact h.resolve i _ _ _ _ _
  | cancel tag => exact h.cancel i tag
  | identify => exact h.of_engines rfl
  | getStatus => exact h.of_engines rfl
  | stageRoute slot r =>
    refine h.of_engines ?_
    show (s.stage i slot r).engines = s.engines
    unfold State.stage
    split <;> rfl
  | readRoute bank slot => exact h.of_engines rfl
  | commit g m t => exact h.of_engines (s.commit_engines i g m t)
  | discard =>
    refine h.of_engines ?_
    show (s.discardStaging i).engines = s.engines
    unfold State.discardStaging
    split <;> rfl
  | setBranch b c => exact (h.reconfigure b range).of_engines rfl
  | getBranch b => exact h.of_engines rfl
  | setArbiter c => exact h.of_engines rfl
  | reset scope => exact h.of_engines rfl

theorem State.EnginesFit.runChecks {s : State} (h : s.EnginesFit) (fr : Frame) : (s.runChecks fr).EnginesFit := by
  have checked := s.runChecks_checked fr
  generalize s.runChecks fr = t at checked
  cases checked with
  | duplicate => exact h.of_engines rfl
  | full => exact h
  | malformed => exact h.of_engines (by rw [State.refuse_engines]; rfl)
  | @executed i r _ _ hr =>
    exact State.EnginesFit.execute (s := s.allocate i fr) h i (Frame.wellFormed_of_request hr)

theorem State.EnginesFit.take {s : State} (h : s.EnginesFit) (names : Frame → Bool) : (s.take names).EnginesFit := by
  rcases s.take_cases names with same | ⟨fr, rest, -, -, -, taken⟩
  · rwa [same]
  · rw [taken]
    refine s.takeHead_keeps fr rest ?_ fun u hu => hu.of_engines rfl
    rintro u ⟨n, q, rfl⟩
    exact State.EnginesFit.runChecks (by exact h) fr

/-! ### Resets -/

theorem Engine.Fit.afterFull {g : Engine} (h : g.Fit) : g.afterFull.Fit := by
  have rest (hs : g.state.afterFull = .disabled) : g.afterFull.Fit := by
    refine Engine.fit_rest (.inl hs) rfl rfl rfl rfl BranchConfig.reset_inRange rfl ?_
    show g.wire.afterFull = .released ∨ g.wire.afterFull = .closingMark
    cases g.wire <;> simp [Wire.afterFull]
  have marked (hs : g.state.afterFull = .exchange ∨ g.state.afterFull = .recovery) (hw : g.wire ≠ .released) :
      g.afterFull.Fit := by
    refine Engine.fit_closingMark hs ?_ rfl rfl rfl BranchConfig.reset_inRange rfl
    show g.wire.afterFull = .closingMark
    cases hg : g.wire <;> simp_all [Wire.afterFull]
  cases hs : g.state with
  | disabled => exact rest (by rw [hs]; rfl)
  | idle => exact rest (by rw [hs]; rfl)
  | retryWait => exact rest (by rw [hs]; rfl)
  | faulted => exact rest (by rw [hs]; rfl)
  | exchange =>
    refine marked (.inl (by rw [hs]; rfl)) fun released => ?_
    have wire := h.wire.exchange hs
    simp [released] at wire
  | recovery =>
    refine marked (.inr (by rw [hs]; rfl)) fun released => ?_
    have wire := h.wire.recovery hs
    simp [released] at wire

theorem Engine.Fit.afterSoft {g : Engine} (h : g.Fit) : g.afterSoft.Fit := by
  have config := h.sound.config
  cases hs : g.state with
  | disabled =>
    have unserved := h.sound.unserved (.inl hs)
    have timer := h.sound.retryTimer_eq_none (by rw [hs]; decide)
    simp only [Engine.afterSoft, hs]
    exact h.of_shape ⟨hs.symm, rfl, rfl, by rw [unserved], by rw [timer], rfl, rfl, rfl⟩
  | idle =>
    have unserved := h.sound.unserved (.inr (.inl hs))
    have timer := h.sound.retryTimer_eq_none (by rw [hs]; decide)
    simp only [Engine.afterSoft, hs]
    exact h.of_shape ⟨hs.symm, rfl, rfl, by rw [unserved], by rw [timer], rfl, rfl, rfl⟩
  | faulted =>
    have unserved := h.sound.unserved (.inr (.inr hs))
    have timer := h.sound.retryTimer_eq_none (by rw [hs]; decide)
    simp only [Engine.afterSoft, hs]
    exact h.of_shape ⟨hs.symm, rfl, rfl, by rw [unserved], by rw [timer], rfl, rfl, rfl⟩
  | recovery =>
    obtain ⟨-, recoveryTimer⟩ := h.exchange_timers (.inr hs)
    simp only [Engine.afterSoft, hs]
    obtain ⟨⟨-, -, flag, -, -, -, -⟩, ⟨-, recovery, -, -, -, copy⟩⟩ := h
    refine ⟨⟨?_, fun _ => rfl, ?_, ?_, ?_, ?_, config⟩, ⟨?_, ?_, ?_, ?_, ?_, copy⟩⟩
    · simp
    · simp
    · simp
    · simp [recoveryTimer]
    · intro attempt
      have wire := recovery hs
      have attempt' : g.wire = .attempt := attempt
      simp [attempt'] at wire
    · simp
    · intro _
      rcases recovery hs with ⟨wire, -⟩ | ⟨cause, wire, -⟩
      · exact .inl ⟨wire, rfl⟩
      · exact .inr ⟨cause, wire, fun _ => rfl⟩
    · simp
    · simp
    · simp
  | retryWait =>
    have flag := h.sound.disablePending_eq_false (by rw [hs]; decide) (by rw [hs]; decide)
    have recoveryTimer := h.sound.recoveryTimer_eq_none (by rw [hs]; decide)
    simp only [Engine.afterSoft, hs]
    refine Engine.fit_rest ?_ flag rfl rfl recoveryTimer config rfl (.inl rfl)
    cases g.config.enabled
    · exact .inl rfl
    · exact .inr rfl
  | exchange =>
    obtain ⟨-, recoveryTimer⟩ := h.exchange_timers (.inl hs)
    simp only [Engine.afterSoft, hs]
    by_cases wire : g.wire = .closingMark
    · obtain ⟨-, copy, -, -⟩ := h.of_closingMark wire
      rw [if_pos wire]
      exact Engine.fit_closingMark (.inl rfl) wire rfl rfl recoveryTimer config copy
    · rw [if_neg wire]
      exact Engine.fit_softReset rfl rfl rfl rfl recoveryTimer config rfl

theorem State.EnginesFit.map {s t : State} {f : Engine → Engine} (h : s.EnginesFit) (hf : ∀ g : Engine, g.Fit → (f g).Fit)
    (ht : t.engines = Table.map f s.engines) : t.EnginesFit := by
  intro b
  have here : t.engine b = f (s.engine b) := by simp [State.engine, ht]
  rw [here]
  exact hf _ (h b)

theorem State.EnginesFit.takeEffect {s : State} (h : s.EnginesFit) (scope : ResetScope) (straps : RateCode) :
    (s.takeEffect scope straps).EnginesFit := by
  cases scope
  · exact h.map (f := Engine.afterSoft) (fun _ => Engine.Fit.afterSoft) rfl
  · exact h.map (f := Engine.afterFull) (fun _ => Engine.Fit.afterFull) rfl

theorem State.EnginesFit.arbitrate {s : State} (h : s.EnginesFit) {ready : Source → Bool}
    (hready : ∀ x, ready x = true → s.sourceReady x = true) : (s.arbitrate ready).EnginesFit :=
  State.arbitrate_keeps (P := State.EnginesFit) hready (fun _ _ => h.of_engines rfl)
    (fun src _ _ _ => h.of_engines (State.beginFrame_begins _ src).engines)

theorem State.EnginesFit.drain {s : State} (h : s.EnginesFit) : s.drain.EnginesFit := by
  unfold State.drain
  split
  · split
    · exact h
    · simp only
      split <;> exact h
  · exact h

theorem State.EnginesFit.expireQuiesce {s : State} (h : s.EnginesFit) : s.expireQuiesce.EnginesFit := by
  unfold State.expireQuiesce
  split
  · exact h
  · split
    · exact h
    · simp only
      split <;> exact h

theorem State.EnginesSound.fit {s : State} (h : s.EnginesSound) (running : s.stopped = false) : s.EnginesFit :=
  fun b => ⟨h.engine b, h.wire running b⟩

theorem State.EnginesFit.enginesSound {s : State} (h : s.EnginesFit) : s.EnginesSound :=
  ⟨fun b => (h b).sound, fun _ b => (h b).wire⟩

/-- While the part is not stopped every event but those of the supply keeps the engines. -/
theorem State.Event.enginesFit {s t : State} {c : Instr} (h : s.EnginesFit) (supply : ¬ s.SupplyEvent c t)
    (e : s.Event c t) : t.EnginesFit := by
  cases e with
  | link e =>
    rw [e.onlyLink.same]
    exact h
  | engine b e => exact e.enginesFit h
  | expireWatch i => exact h.expireWatch i
  | take names _ => exact h.take names
  | drain => exact h.drain
  | expireQuiesce => exact h.expireQuiesce
  | endFrame straps =>
    rcases s.endFrame_cases straps with same | ⟨frame, u, -, -, released, ends⟩
    · rwa [same]
    · rw [ends]
      refine State.EnginesFit.arbitrate ?_ fun _ => id
      have cleared : ({ s with tx := none } : State).EnginesFit := h
      generalize frame.what = what at released
      cases released with
      | notice => exact cleared
      | reset _ => exact cleared.takeEffect _ _
      | @response i _ =>
        exact State.beforeDecision_keeps (P := State.EnginesFit)
          (cleared.of_engines (State.freeEntry_engines _ i))
          (fun _ ht => ht) (fun _ ht => ht.drain) (fun _ names ht => ht.take names)
  | grantIdle =>
    rcases s.grantIdle_cases with same | ⟨n, ready, -, hready, granted⟩
    · rwa [same]
    · rw [granted]
      exact State.EnginesFit.arbitrate (s := { s with freeCount := n }) h hready
  | supply e => exact absurd e supply

/-- A condition that stops the part releases every line; start-up brings every engine to its power-on values. -/
theorem State.SupplyEvent.enginesSound {s t : State} {c : Instr} (h : s.EnginesSound) (e : s.SupplyEvent c t) :
    t.EnginesSound := by
  rcases e.cases with rfl | ⟨sup, rfl, stopped⟩ | ⟨sup, rfl, stopped⟩ | ⟨straps, cause, rfl⟩
  · exact h
  · refine ⟨fun b => ?_, fun running => absurd (stopped.symm.trans running) (by decide)⟩
    have here : ({ s with supply := sup } : State).stop.engine b = { s.engine b with wire := .released } := by
      simp [State.engine, State.stop]
    rw [here]
    obtain ⟨served, unserved, flag, retry, recovery, -, config⟩ := h.engine b
    exact ⟨served, unserved, flag, retry, recovery, nofun, config⟩
  · exact ⟨h.engine, fun running => absurd (stopped.symm.trans running) (by decide)⟩
  · refine State.EnginesFit.enginesSound fun b => ?_
    have here : (s.startUp straps cause).engine b = Engine.reset := Table.get_replicate _ b
    rw [here]
    exact Engine.reset_fit

theorem Engine.elapse_shape (g : Engine) : g.SameShape g.elapse := by
  constructor <;> simp [Engine.elapse]

/-- Settles O58: a running part by the events; a stopped one keeps its engines. -/
theorem stepKeepsTheEnginesSound : Obligations.StepKeepsTheEnginesSound := fun _ _ =>
  step_keeps (P := State.EnginesSound) (fun _ _ h => ⟨h.engine, h.wire⟩)
    (fun s h => by
      rcases s.tick_cases with same | ⟨running, elapsed⟩
      · rwa [same]
      · rw [elapsed]
        refine ((h.fit running).map (f := Engine.elapse) (fun g hg => ?_) rfl).enginesSound
        exact hg.of_shape g.elapse_shape)
    (fun s t c h e => by
      by_cases supply : s.SupplyEvent c t
      · exact supply.enginesSound h
      · cases hs : s.stopped with
        | false => exact (e.enginesFit (h.fit hs) supply).enginesSound
        | true =>
          obtain ⟨l, rfl⟩ := e.of_stopped hs supply
          exact ⟨h.engine, h.wire⟩)

end Sys2Proof.Machine
end

section
/-! PROOFS. The watch timers and the arbiter (Sections 5.3 and 8): where a placed timer stands, which operations leave the timers
in their order, that only SET_ARBITER and the resets replace the configuration, and that a grant stands beside a frame. -/

namespace Sys2Proof.Machine

/-! ### A placed timer -/

/-- A timer is inserted behind timers that expire no later, and, in a list in order of expiry, ahead of timers that expire no
earlier. -/
theorem insertTimer_split (tie : Nat → Bool) (t : WatchTimer) (l : List WatchTimer) :
    ∀ k, ∃ pre post, l = pre ++ post ∧ insertTimer tie t k l = pre ++ t :: post ∧
      (∀ u ∈ pre, u.remaining ≤ t.remaining) ∧
      (l.Pairwise (fun u v => u.remaining ≤ v.remaining) → ∀ u ∈ post, t.remaining ≤ u.remaining) := by
  induction l with
  | nil => exact fun k => ⟨[], [], rfl, rfl, by simp, by simp⟩
  | cons u rest ih =>
    intro k
    have ahead (h : t.remaining ≤ u.remaining) (sorted : (u :: rest).Pairwise (fun u v => u.remaining ≤ v.remaining)) :
        ∀ v ∈ u :: rest, t.remaining ≤ v.remaining := by
      intro v hv
      rcases List.mem_cons.mp hv with rfl | hv
      · exact h
      · exact h.trans (List.rel_of_pairwise_cons sorted hv)
    have behind (k : Nat) (h : u.remaining ≤ t.remaining) (inserted : insertTimer tie t k (u :: rest) = u :: insertTimer tie t k rest ∨
        insertTimer tie t k (u :: rest) = u :: insertTimer tie t (k + 1) rest) :
        ∃ pre post, u :: rest = pre ++ post ∧ insertTimer tie t k (u :: rest) = pre ++ t :: post ∧
          (∀ u ∈ pre, u.remaining ≤ t.remaining) ∧
          ((u :: rest).Pairwise (fun u v => u.remaining ≤ v.remaining) → ∀ u ∈ post, t.remaining ≤ u.remaining) := by
      obtain ⟨j, hj⟩ : ∃ j, insertTimer tie t k (u :: rest) = u :: insertTimer tie t j rest := by
        rcases inserted with inserted | inserted
        · exact ⟨k, inserted⟩
        · exact ⟨k + 1, inserted⟩
      obtain ⟨pre, post, split, placed, before, after⟩ := ih j
      refine ⟨u :: pre, post, by rw [split]; rfl, by rw [hj, placed]; rfl, ?_, fun sorted => after (List.Pairwise.of_cons sorted)⟩
      intro v hv
      rcases List.mem_cons.mp hv with rfl | hv
      · exact h
      · exact before v hv
    rcases Nat.lt_trichotomy t.remaining u.remaining with lt | eq | gt
    · exact ⟨[], u :: rest, rfl, by simp [insertTimer, lt], by simp, ahead (Nat.le_of_lt lt)⟩
    · cases hk : tie k with
      | true => exact ⟨[], u :: rest, rfl, by simp [insertTimer, eq, hk], by simp, ahead (Nat.le_of_eq eq)⟩
      | false => exact behind k (Nat.le_of_eq eq.symm) (.inr (by simp [insertTimer, eq, hk]))
    · have later : ¬ t.remaining < u.remaining := by omega
      have other : t.remaining ≠ u.remaining := by omega
      exact behind k (Nat.le_of_lt gt) (.inl (by simp [insertTimer, later, other]))

/-- A placed timer stands among the others, in order of expiry. -/
theorem State.placeTimer_split (s : State) (i : EntryId) (interval : Nat) :
    ∃ pre post, s.timers = pre ++ post ∧
      s.placeTimer i interval =
        { s with timers := pre ++ ⟨i, interval * Config.unitsPerMs⟩ :: post, freeCount := s.freeCount + 1 } ∧
      (s.TimersSorted → (s.placeTimer i interval).TimersSorted) := by
  obtain ⟨pre, post, split, placed, before, after⟩ :=
    insertTimer_split (Config.timerTie s.freeCount) ⟨i, interval * Config.unitsPerMs⟩ s.timers 0
  refine ⟨pre, post, split, by simp only [State.placeTimer, placed], fun sorted => ?_⟩
  have later := after sorted
  unfold State.TimersSorted at sorted ⊢
  simp only [State.placeTimer, placed]
  rw [split, List.pairwise_append] at sorted
  obtain ⟨preSorted, postSorted, across⟩ := sorted
  refine List.pairwise_append.mpr ⟨preSorted, List.pairwise_cons.mpr ⟨later, postSorted⟩, fun u hu v hv => ?_⟩
  rcases List.mem_cons.mp hv with rfl | hv
  · exact before u hu
  · exact across u hu v hv

theorem State.expireWatch_of_waiting {s : State} {i : EntryId} {m : Member} {more : List Member}
    (running : s.stopped = false) (runs : ∃ x ∈ s.timers, x.entry = i) (waits : (s.entry i).state = .waiting)
    (members : (s.entry i).members = m :: more) :
    s.expireWatch i =
      ((s.removeTimer i).setEntry i { s.entry i with state := .queued }).appendItem m.branch ⟨i, 0⟩ := by
  have listed : s.timers.any (fun t => t.entry == i) = true := by simpa using runs
  have member : s.member { entry := i, member := 0 } = some m := by simp [State.member, members]
  simp only [State.expireWatch, running, listed, waits, Bool.not_false, Bool.and_self, BEq.rfl, if_true, member]
  rfl

/-- Settles O39. -/
theorem watchTimersStandByExpiryAndRequeue : Obligations.WatchTimersStandByExpiryAndRequeue := by
  refine ⟨fun s i interval sorted => ?_, fun s i m more running runs waits members => ?_⟩
  · obtain ⟨pre, post, split, placed, ordered⟩ := s.placeTimer_split i interval
    exact ⟨pre, post, split, placed, ordered sorted⟩
  · exact congrArg Host.Outcome.next (State.expireWatch_of_waiting running runs waits members)

/-! ### What finishing work does to the timers -/

@[simp] theorem State.freeEntry_timers (s : State) (i : EntryId) : (s.freeEntry i).timers = s.timers := by
  unfold State.freeEntry
  split <;> rfl

@[simp] theorem State.completeEntry_timers (s : State) (i : EntryId) (st : Status) (r : Reply) :
    (s.completeEntry i st r).timers = s.timers := rfl

@[simp] theorem State.endPosted_timers (s : State) (i : EntryId) (st : Status) : (s.endPosted i st).timers = s.timers := by
  simp only [State.endPosted]
  split <;> simp

@[simp] theorem State.finishEntry_timers (s : State) (i : EntryId) : (s.finishEntry i).timers = s.timers := by
  simp only [State.finishEntry]
  split <;> simp

@[simp] theorem State.settle_timers (s : State) (i : EntryId) : (s.settle i).timers = s.timers := by
  simp only [State.settle]
  repeat' split
  all_goals simp

@[simp] theorem State.setMember_timers (s : State) (it : Item) (st : MemberState) (o : Option Status) :
    (s.setMember it st o).timers = s.timers := rfl

@[simp] theorem State.finishMember_timers (s : State) (it : Item) (o : Status) :
    (s.finishMember it o).timers = s.timers := by simp [State.finishMember]

@[simp] theorem State.refuse_timers (s : State) (i : EntryId) (st : Status) : (s.refuse i st).timers = s.timers := by
  unfold State.refuse
  split <;> simp

theorem State.foldl_timers {α : Type} {f : State → α → State} (hf : ∀ s a, (f s a).timers = s.timers) :
    ∀ (l : List α) (s : State), (l.foldl f s).timers = s.timers
  | [], _ => rfl
  | a :: l, s => by rw [List.foldl_cons, State.foldl_timers hf l, hf]

/-- A flush takes the timers of the waiting watches of its branch from the list. -/
theorem State.flushBranch_timers (s : State) (b : BranchId) (o : Status) :
    (s.flushBranch b o).timers = s.timers.filter (fun t => !s.timerOn b t) := by
  simp only [State.flushBranch]
  rw [State.foldl_timers fun u t => State.finishMember_timers u _ o,
    State.foldl_timers fun u it => State.finishMember_timers u it o, State.setTimers_timers]

/-- What is left of the watch timer list after an operation that places none. -/
def State.DropsTimers (s t : State) : Prop := t.timers.Sublist s.timers

theorem State.DropsTimers.of_eq {s t : State} (h : t.timers = s.timers) : s.DropsTimers t := by
  rw [State.DropsTimers, h]

theorem State.DropsTimers.trans {s t u : State} (h : s.DropsTimers t) (k : t.DropsTimers u) : s.DropsTimers u :=
  List.Sublist.trans k h

theorem State.DropsTimers.sorted {s t : State} (h : s.DropsTimers t) (hs : s.TimersSorted) : t.TimersSorted :=
  List.Pairwise.sublist h hs

theorem State.DropsTimers.foldl {α : Type} {f : State → α → State} (hf : ∀ (s : State) a, s.DropsTimers (f s a)) :
    ∀ (l : List α) (s : State), s.DropsTimers (l.foldl f s)
  | [], _ => .of_eq rfl
  | a :: l, s => (hf s a).trans (State.DropsTimers.foldl hf l (f s a))

theorem State.flushBranch_dropsTimers (s : State) (b : BranchId) (o : Status) : s.DropsTimers (s.flushBranch b o) := by
  rw [State.DropsTimers, State.flushBranch_timers]
  exact List.filter_sublist

theorem State.carryOutDisable_dropsTimers (s : State) (b : BranchId) : s.DropsTimers (s.carryOutDisable b) :=
  s.flushBranch_dropsTimers b _

theorem State.endItem_dropsTimers (s : State) (b : BranchId) : s.DropsTimers (s.endItem b) := by
  simp only [State.endItem]
  split
  · exact State.carryOutDisable_dropsTimers (s.setEngine b _) b
  · exact .of_eq rfl

theorem State.dismiss_dropsTimers (s : State) (b : BranchId) (o : Status) : s.DropsTimers (s.dismiss b o) := by
  unfold State.dismiss
  split
  · exact .of_eq rfl
  · exact .of_eq (by simp)

theorem State.fault_dropsTimers (s : State) (b : BranchId) (r : BranchReason) : s.DropsTimers (s.fault b r) :=
  (State.dismiss_dropsTimers (s.setEngine b _) b .branchFault).trans (State.flushBranch_dropsTimers _ b .branchFault)

theorem State.beginTry_timers (s : State) (b : BranchId) (p q : Bool) : (s.beginTry b p q).timers = s.timers := by
  simp only [State.beginTry]
  split <;> rfl

theorem State.endItemWith_dropsTimers (s : State) (b : BranchId) (it : Item) (o : Status) :
    s.DropsTimers (s.endItemWith b it o) :=
  (State.DropsTimers.of_eq (s.finishMember_timers it o)).trans (State.endItem_dropsTimers _ b)

theorem State.TimersSorted.endWatchRead {s : State} (h : s.TimersSorted) (it : Item) (v : List Byte) :
    (s.endWatchRead it v).TimersSorted := by
  unfold State.endWatchRead
  split
  · exact (State.DropsTimers.of_eq (s.finishMember_timers it _)).sorted h
  · simp only
    split
    · exact (State.DropsTimers.of_eq (by simp)).sorted h
    · obtain ⟨-, -, -, -, ordered⟩ := State.placeTimer_split (State.setEntry _ it.entry _) it.entry _
      exact ordered h

theorem State.TimersSorted.endTry {s : State} (h : s.TimersSorted) (b : BranchId) (it : Item) (r : TryResult) (p q : Bool) :
    (s.endTry b it r p q).TimersSorted := by
  have ended (o : Status) : (s.endItemWith b it o).TimersSorted := (s.endItemWith_dropsTimers b it o).sorted h
  cases r with
  | good v =>
    simp only [State.endTry, State.endItemGood]
    split
    · refine (State.endItem_dropsTimers _ b).sorted ?_
      exact (State.DropsTimers.of_eq (State.finishMember_timers _ it _)).sorted h
    · exact (State.endItem_dropsTimers _ b).sorted (h.endWatchRead it v)
    · exact ended .ok
  | busy =>
    simp only [State.endTry, State.busyEnd]
    split
    · split
      · exact (State.DropsTimers.of_eq (State.beginTry_timers _ b p q)).sorted h
      · exact h
    · exact ended .busy
  | checkFailure =>
    simp only [State.endTry, State.checkEnd]
    split
    · exact (State.DropsTimers.of_eq (State.beginTry_timers _ b p q)).sorted h
    · exact ended .checkError
  | rejected => exact ended .rejected
  | noDevice => exact ended .noDevice

theorem State.endBareRecovery_dropsTimers (s : State) (b : BranchId) : s.DropsTimers (s.endBareRecovery b) := by
  simp only [State.endBareRecovery]
  split
  · exact State.carryOutDisable_dropsTimers (s.setEngine b _) b
  · exact .of_eq rfl

theorem State.tryAfterRecovery_dropsTimers (s : State) (b : BranchId) (it : Item) :
    s.DropsTimers (s.tryAfterRecovery b it) := by
  simp only [State.tryAfterRecovery]
  split
  · exact (State.DropsTimers.of_eq (State.settle_timers (s.dropMember it) _)).trans (State.endItem_dropsTimers _ b)
  · split
    · exact s.endItemWith_dropsTimers b it _
    · exact .of_eq rfl

theorem State.EngineEvent.timersSorted {s t : State} {b : BranchId} (h : s.TimersSorted) (e : s.EngineEvent b t) :
    t.TimersSorted := by
  cases e with
  | takeItem p q =>
    simp only [State.takeItem]
    split
    · split
      · exact h
      · exact (State.DropsTimers.of_eq (State.beginTry_timers _ b p q)).sorted h
    · exact h
  | endExchange a p q =>
    simp only [State.endExchange]
    split
    · exact h
    · split
      · exact h
      · exact h.endTry b _ _ p q
  | timeOutHold =>
    simp only [State.timeOutHold]
    split <;> exact h
  | expireRetry p q =>
    simp only [State.expireRetry]
    split
    · exact h
    · exact (State.DropsTimers.of_eq (State.beginTry_timers _ b p q)).sorted h
  | endRecovery p q =>
    simp only [State.endRecovery]
    split
    · exact h
    · split
      · split
        · split
          · exact (s.tryAfterRecovery_dropsTimers b _).sorted h
          · exact (s.endItemWith_dropsTimers b _ _).sorted h
          · exact (s.endBareRecovery_dropsTimers b).sorted h
          · exact (s.endBareRecovery_dropsTimers b).sorted h
        · exact (s.fault_dropsTimers b _).sorted h
      all_goals exact h
  | expireRecovery =>
    simp only [State.expireRecovery]
    split <;> exact h
  | endAttempt p q =>
    simp only [State.endAttempt]
    repeat' split
    all_goals exact h
  | endClosingMark =>
    simp only [State.endClosingMark]
    split
    · split
      any_goals exact h
      all_goals
        split
        · exact h
        · exact (State.carryOutDisable_dropsTimers (s.setEngine b _) b).sorted h
    · exact h

theorem State.resolve_timers (s : State) (i : EntryId) (k : Kind) (a : Half) (n : Nat) (d : List Byte)
    (w : Option WatchRecord) : (s.resolve i k a n d w).timers = s.timers := by
  simp only [State.resolve]
  split
  · simp
  · split
    · simp only [State.placeGroup]
      rw [State.settle_timers, State.foldl_timers]
      · rfl
      · intro u x
        simp only [State.placeMember]
        split <;> rfl
    · simp only [State.placeDirect]
      split
      · rfl
      · simp
    · simp

theorem State.reconfigure_dropsTimers (s : State) (b : BranchId) (c : BranchConfig) : s.DropsTimers (s.reconfigure b c) := by
  have disabled (u : State) (hu : s.DropsTimers u) : s.DropsTimers (u.disable b) := by
    simp only [State.disable]
    split
    any_goals exact hu
    · exact hu.trans ((State.dismiss_dropsTimers (u.setEngine b _) b _).trans (State.carryOutDisable_dropsTimers _ b))
    all_goals exact hu.trans (u.carryOutDisable_dropsTimers b)
  simp only [State.reconfigure]
  split
  · exact .of_eq rfl
  · exact disabled _ (.of_eq rfl)

theorem State.cancelTarget_dropsTimers (s : State) (j : EntryId) : s.DropsTimers (s.cancelTarget j).1 := by
  have member (u : State) (x : Member × Nat) : u.DropsTimers (State.cancelMember j u x) := by
    simp only [State.cancelMember]
    repeat' split
    all_goals exact .of_eq rfl
  have atWork : s.DropsTimers (((s.entry j).members.zipIdx.foldl (State.cancelMember j) s).settle j) :=
    (State.DropsTimers.foldl member _ s).trans (.of_eq (State.settle_timers _ j))
  unfold State.cancelTarget
  split
  · exact atWork
  · exact atWork
  · rw [State.DropsTimers]
    simp only [State.settle_timers]
    exact List.filter_sublist
  all_goals exact .of_eq rfl

theorem State.execute_dropsTimers (s : State) (i : EntryId) (r : Request) : s.DropsTimers (s.execute i r) := by
  cases r with
  | read a n => exact .of_eq (s.resolve_timers i _ _ _ _ _)
  | write p a d => exact .of_eq (s.resolve_timers i _ _ _ _ _)
  | watch a iv li mask pat => exact .of_eq (s.resolve_timers i _ _ _ _ _)
  | cancel tag =>
    simp only [State.execute, State.cancel]
    split
    · exact .of_eq rfl
    · exact s.cancelTarget_dropsTimers _
  | identify => exact .of_eq rfl
  | getStatus => exact .of_eq rfl
  | stageRoute slot r =>
    simp only [State.execute, State.stage]
    split <;> exact .of_eq rfl
  | readRoute bank slot => exact .of_eq rfl
  | commit g m t =>
    simp only [State.execute, State.commit]
    repeat' split
    all_goals exact .of_eq rfl
  | discard =>
    simp only [State.execute, State.discardStaging]
    split <;> exact .of_eq rfl
  | setBranch b c => exact s.reconfigure_dropsTimers b c
  | getBranch b => exact .of_eq rfl
  | setArbiter c => exact .of_eq rfl
  | reset scope => exact .of_eq rfl

theorem State.runChecks_dropsTimers (s : State) (fr : Frame) : s.DropsTimers (s.runChecks fr) := by
  have checked := s.runChecks_checked fr
  generalize s.runChecks fr = t at checked
  cases checked with
  | duplicate => exact .of_eq rfl
  | full => exact .of_eq rfl
  | malformed => exact .of_eq (by rw [State.refuse_timers]; rfl)
  | @executed i r => exact (s.allocate i fr).execute_dropsTimers i r

theorem State.TimersSorted.take {s : State} (h : s.TimersSorted) (names : Frame → Bool) : (s.take names).TimersSorted := by
  rcases s.take_cases names with same | ⟨fr, rest, -, -, -, taken⟩
  · rwa [same]
  · rw [taken]
    refine s.takeHead_keeps fr rest ?_ fun u hu => hu
    rintro u ⟨n, q, rfl⟩
    exact (State.runChecks_dropsTimers _ fr).sorted h

theorem State.drain_timers (s : State) : s.drain.timers = s.timers := by
  simp only [State.drain]
  repeat' split
  all_goals rfl

theorem State.expireQuiesce_timers (s : State) : s.expireQuiesce.timers = s.timers := by
  simp only [State.expireQuiesce]
  repeat' split
  all_goals rfl

theorem State.arbitrate_timers (s : State) {ready : Source → Bool}
    (hready : ∀ x, ready x = true → s.sourceReady x = true) : (s.arbitrate ready).timers = s.timers :=
  State.arbitrate_keeps (P := fun t => t.timers = s.timers) hready (fun _ _ => rfl)
    (fun src _ _ _ => (State.beginFrame_begins _ src).timers)

theorem State.takeEffect_timers (s : State) (scope : ResetScope) (straps : RateCode) :
    (s.takeEffect scope straps).timers = [] := by
  cases scope <;> rfl

theorem State.Event.timersSorted {s t : State} {c : Instr} (h : s.TimersSorted) (e : s.Event c t) : t.TimersSorted := by
  have same {u : State} (hu : u.timers = s.timers) : u.TimersSorted := (State.DropsTimers.of_eq hu).sorted h
  cases e with
  | link e =>
    rw [e.onlyLink.same]
    exact h
  | engine b e => exact e.timersSorted h
  | expireWatch i =>
    simp only [State.expireWatch]
    repeat' split
    · exact h
    · exact List.Pairwise.sublist List.filter_sublist h
    · exact h
  | take names _ => exact h.take names
  | drain => exact same s.drain_timers
  | expireQuiesce => exact same s.expireQuiesce_timers
  | endFrame straps =>
    rcases s.endFrame_cases straps with unchanged | ⟨frame, u, -, -, released, ends⟩
    · rwa [unchanged]
    · rw [ends]
      refine (State.DropsTimers.of_eq (u.arbitrate_timers fun _ => id)).sorted ?_
      generalize frame.what = what at released
      cases released with
      | notice => exact h
      | reset _ =>
        rw [State.TimersSorted, State.takeEffect_timers]
        exact .nil
      | @response i _ =>
        exact State.beforeDecision_keeps (P := State.TimersSorted)
          (same (State.freeEntry_timers _ i)) (fun _ hu => hu)
          (fun u hu => (State.DropsTimers.of_eq u.drain_timers).sorted hu) (fun _ names hu => hu.take names)
  | grantIdle =>
    rcases s.grantIdle_cases with unchanged | ⟨n, ready, -, hready, granted⟩
    · rwa [unchanged]
    · rw [granted]
      exact same (State.arbitrate_timers { s with freeCount := n } hready)
  | supply e =>
    rcases e.cases with rfl | ⟨sup, rfl, -⟩ | ⟨sup, rfl, -⟩ | ⟨straps, cause, rfl⟩
    · exact h
    · exact h
    · exact h
    · exact List.Pairwise.nil

/-! ### The arbiter -/

/-- The configuration, the grant, TTXD and the running of the part decide. -/
theorem State.ArbiterSound.of_grant {s t : State} (h : s.ArbiterSound) (legal : t.arbiter.config.legal = true)
    (grant : t.arbiter.grant = s.arbiter.grant) (tx : t.tx = s.tx) (supply : t.supply = s.supply) : t.ArbiterSound := by
  refine ⟨legal, ?_⟩
  rw [State.stopped, supply, grant, tx]
  exact h.grant

theorem State.OnlyWork.arbiterSound {s t : State} (w : s.OnlyWork t) (h : s.ArbiterSound) : t.ArbiterSound :=
  h.of_grant (by rw [w.config]; exact h.legal) w.grant w.tx w.supply

theorem State.execute_legal {s : State} (i : EntryId) {r : Request} (range : r.wellFormed = true)
    (h : s.arbiter.config.legal = true) : (s.execute i r).arbiter.config.legal = true := by
  have closed := State.onlyWork_closed
  have work {t : State} (w : s.OnlyWork t) : t.arbiter.config.legal = true := by rwa [w.config]
  have routed {t : State} (rt : RouteUnit) (w : (s.setRoutes rt).OnlyWork t) : t.arbiter.config.legal = true := by
    rwa [w.config]
  cases r with
  | read a n => exact work (closed.resolve s i _ _ _ _ _)
  | write p a d => exact work (closed.resolve s i _ _ _ _ _)
  | watch a iv li mask pat => exact work (closed.resolve s i _ _ _ _ _)
  | cancel tag =>
    simp only [State.execute, State.cancel]
    split
    · exact work (s.completeEntry_onlyWork i _ _)
    · rename_i j _
      rcases s.cancelTarget_onlyWork j with w | w
      · exact work (closed.trans w (State.completeEntry_onlyWork _ i _ _))
      · exact routed _ (closed.trans w (State.completeEntry_onlyWork _ i _ _))
  | identify => exact work (s.completeEntry_onlyWork i _ _)
  | getStatus => exact work (s.completeEntry_onlyWork i _ _)
  | stageRoute slot r =>
    simp only [State.execute, State.stage]
    split
    · exact work (s.completeEntry_onlyWork i _ _)
    · exact routed _ (State.completeEntry_onlyWork _ i _ _)
  | readRoute bank slot => exact work (s.completeEntry_onlyWork i _ _)
  | commit g m t =>
    simp only [State.execute, State.commit]
    have performed : (s.commitNow i).arbiter.config.legal = true := routed _ (State.completeEntry_onlyWork _ i _ _)
    repeat' split
    · exact work (s.completeEntry_onlyWork i _ _)
    · exact work (s.completeEntry_onlyWork i _ _)
    · exact work (s.completeEntry_onlyWork i _ _)
    · exact performed
    · exact performed
    · exact h
  | discard =>
    simp only [State.execute, State.discardStaging]
    split
    · exact work (s.completeEntry_onlyWork i _ _)
    · exact routed _ (State.completeEntry_onlyWork _ i _ _)
  | setBranch b c => exact work (closed.setBranch s i b c)
  | getBranch b => exact work (s.completeEntry_onlyWork i _ _)
  | setArbiter c =>
    have stored : (s.execute i (.setArbiter c)).arbiter.config = c :=
      (State.completeEntry_onlyWork (s.setArbiter { s.arbiter with config := c }) i _ _).config
    rw [stored]
    exact range
  | reset scope =>
    have kept := (State.completeEntry_onlyWork
      (({ s with halt := true } : State).setEntry i { s.entry i with scope := some scope }) i .ok (.reset scope)).config
    exact (congrArg ArbiterConfig.legal kept).trans h

theorem State.runChecks_legal {s : State} (fr : Frame) (h : s.arbiter.config.legal = true) :
    (s.runChecks fr).arbiter.config.legal = true := by
  have checked := s.runChecks_checked fr
  generalize s.runChecks fr = t at checked
  cases checked with
  | duplicate => exact h
  | full => exact h
  | malformed =>
    rw [(State.onlyWork_closed.refuse _ _ _).config]
    exact h
  | @executed i r _ _ hr => exact State.execute_legal (s := s.allocate i fr) i (Frame.wellFormed_of_request hr) h

theorem State.ArbiterSound.take {s : State} (h : s.ArbiterSound) (names : Frame → Bool) : (s.take names).ArbiterSound := by
  rcases s.take_cases names with same | ⟨fr, rest, -, -, -, taken⟩
  · rwa [same]
  · rw [taken]
    have legal : (s.takeHead fr rest).arbiter.config.legal = true := by
      refine s.takeHead_keeps (P := fun t => t.arbiter.config.legal = true) fr rest ?_ fun u hu => hu
      rintro u ⟨n, q, rfl⟩
      exact State.runChecks_legal fr h.legal
    have kept := s.takeHead_keepsTrunk fr rest
    exact h.of_grant legal kept.grant kept.tx kept.supply

theorem Arbiter.sync_config (a : Arbiter) : a.sync.config = a.config := by
  unfold Arbiter.sync
  split <;> rfl

/-- A decision leaves a grant beside the frame it begins, or none. -/
theorem State.arbitrate_arbiterSound {s : State} {ready : Source → Bool}
    (hready : ∀ x, ready x = true → s.sourceReady x = true) (legal : s.arbiter.config.legal = true) :
    (s.arbitrate ready).ArbiterSound := by
  refine State.arbitrate_keeps (P := State.ArbiterSound) hready ?_ fun src n l hsrc => ?_
  · rintro a rfl
    refine ⟨?_, fun _ granted => by simp at granted⟩
    rw [State.setArbiter_arbiter]
    simpa only [Arbiter.sync_config] using legal
  · refine ⟨?_, fun _ _ => ?_⟩
    · rw [(State.beginFrame_begins _ src).config, State.setArbiter_arbiter]
      simpa only [Arbiter.sync_config] using legal
    · refine State.beginFrame_tx _ src ?_
      have queues : s.arbiter.sync.branchQueues = s.arbiter.branchQueues ∧ s.arbiter.sync.ctlQueue = s.arbiter.ctlQueue := by
        unfold Arbiter.sync
        split <;> exact ⟨rfl, rfl⟩
      cases src <;> simpa [State.sourceReady, queues] using hsrc

theorem ArbiterConfig.reset_legal : ArbiterConfig.reset.legal = true := by decide

theorem State.drain_config (s : State) : s.drain.arbiter.config = s.arbiter.config := by
  simp only [State.drain]
  repeat' split
  · rfl
  · exact (State.completeEntry_onlyWork _ _ _ _).config
  · rfl
  · rfl

theorem State.ArbiterSound.drain {s : State} (h : s.ArbiterSound) : s.drain.ArbiterSound :=
  h.of_grant (by rw [s.drain_config]; exact h.legal) s.drain_keepsTrunk.grant s.drain_keepsTrunk.tx s.drain_keepsTrunk.supply

theorem State.ArbiterSound.expireQuiesce {s : State} (h : s.ArbiterSound) : s.expireQuiesce.ArbiterSound := by
  have kept := s.expireQuiesce_keepsTrunk
  refine h.of_grant ?_ kept.grant kept.tx kept.supply
  have config : s.expireQuiesce.arbiter.config = s.arbiter.config := by
    simp only [State.expireQuiesce]
    repeat' split
    · rfl
    · rfl
    · exact (State.completeEntry_onlyWork _ _ _ _).config
    · rfl
  rw [config]
  exact h.legal

theorem State.Event.arbiterSound {s t : State} {c : Instr} (h : s.ArbiterSound) (e : s.Event c t) : t.ArbiterSound := by
  cases e with
  | link e =>
    rw [e.onlyLink.same]
    exact ⟨h.legal, h.grant⟩
  | engine b e => exact (State.onlyWork_closed.engineEvent e).arbiterSound h
  | expireWatch i => exact (State.onlyWork_closed.expireWatch s i).arbiterSound h
  | take names _ => exact h.take names
  | drain => exact h.drain
  | expireQuiesce => exact h.expireQuiesce
  | endFrame straps =>
    rcases s.endFrame_cases straps with same | ⟨frame, u, -, -, released, ends⟩
    · rwa [same]
    · rw [ends]
      refine State.arbitrate_arbiterSound (fun _ => id) ?_
      generalize frame.what = what at released
      cases released with
      | notice => exact h.legal
      | @reset i scope _ =>
        cases scope
        · exact h.legal
        · exact ArbiterConfig.reset_legal
      | @response i _ =>
        refine State.beforeDecision_keeps (P := fun u => u.arbiter.config.legal = true) ?_ (fun _ hu => hu) ?_ ?_
        · rw [(State.onlyWork_closed.freeEntry _ i).config]
          exact h.legal
        · intro u hu
          rwa [u.drain_config]
        · intro u names hu
          rcases u.take_cases names with same | ⟨fr, rest, -, -, -, taken⟩
          · rwa [same]
          · rw [taken]
            refine u.takeHead_keeps (P := fun t => t.arbiter.config.legal = true) fr rest ?_ fun _ hv => hv
            rintro v ⟨n, q, rfl⟩
            exact State.runChecks_legal fr hu
  | grantIdle =>
    rcases s.grantIdle_cases with same | ⟨n, ready, -, hready, granted⟩
    · rwa [same]
    · rw [granted]
      exact State.arbitrate_arbiterSound (s := { s with freeCount := n }) hready h.legal
  | supply e =>
    rcases e.cases with rfl | ⟨sup, rfl, stopped⟩ | ⟨sup, rfl, stopped⟩ | ⟨straps, cause, rfl⟩
    · exact h
    · exact ⟨h.legal, fun running => absurd (stopped.symm.trans running) (by decide)⟩
    · exact ⟨h.legal, fun running => absurd (stopped.symm.trans running) (by decide)⟩
    · exact ⟨ArbiterConfig.reset_legal, fun _ granted => by cases granted⟩

theorem State.TimersSorted.elapse {s : State} (h : s.TimersSorted) : s.elapse.TimersSorted := by
  refine List.pairwise_map.mpr (h.imp fun hab => ?_)
  exact Nat.sub_le_sub_right hab 1

/-- Settles O59: the timers by what each event drops or places, the arbiter by who writes its configuration and its grant. -/
theorem stepKeepsArbiterAndTimersSound : Obligations.StepKeepsArbiterAndTimersSound := fun _ _ arbiter timers =>
  step_keeps (P := fun s => s.ArbiterSound ∧ s.TimersSorted) (fun _ _ h => ⟨⟨h.1.legal, h.1.grant⟩, h.2⟩)
    (fun s h => by
      rcases s.tick_cases with same | ⟨-, elapsed⟩
      · rwa [same]
      · rw [elapsed]
        exact ⟨⟨h.1.legal, h.1.grant⟩, h.2.elapse⟩)
    (fun _ _ _ h e => ⟨e.arbiterSound h.1, e.timersSorted h.2⟩) ⟨arbiter, timers⟩

end Sys2Proof.Machine
end

section
/-! PROOFS. The places of the work (`State.Placed`), loosened so that every shared operation keeps them: some entries may be loose,
with nothing that refers to them while their record is written, and the item in service at one engine may be leaving. Here: what
each elementary update does to that, and the finishing of members, of whole branches and of waiting watches. -/

namespace Sys2Proof.Machine

/-! ### Placed but for loose entries and one leaving item -/

/-- What the record of an entry holds while it stands in its place. -/
structure Entry.WellPlaced (e : Entry) : Prop where
  branches : (e.members.map (·.branch)).Nodup
  watching : e.watch.isSome = true → e.members.length ≤ 1
  waiting : e.state = .waiting → ∃ m, e.members = [m] ∧ m.state = .pending
  answered : e.source ≠ .ntc

/-- An entry is at work on its branches (R33). -/
def Entry.onBranches (e : Entry) : Prop := e.state = .queued ∨ e.state = .active

/-- `State.Placed`, but nothing is asked of the loose entries, to which nothing refers, and nothing of the item in service at the
engine `off`. -/
structure State.PlacedBut (s : State) (loose : Finset EntryId) (off : Option BranchId) : Prop where
  queued : ∀ b it, it ∈ (s.engine b).queue → it.entry ∉ loose ∧ (s.entry it.entry).onBranches ∧
    ∃ m, s.member it = some m ∧ m.branch = b ∧ m.state = .pending
  queuedOnce : ∀ b, ((s.engine b).queue.map (·.entry)).Nodup
  served : ∀ b it, off ≠ some b → (s.engine b).inService = some it → it.entry ∉ loose ∧
    (s.entry it.entry).state = .active ∧ ∃ m, s.member it = some m ∧ m.branch = b ∧ m.state = .inService
  entry : ∀ i, i ∉ loose → (s.entry i).WellPlaced
  timer : ∀ i, i ∈ s.timers.map (·.entry) ↔ i ∉ loose ∧ (s.entry i).state = .waiting
  timerOnce : (s.timers.map (·.entry)).Nodup
  held : ∀ i, s.routes.pendingCommit.map (·.entry) = some i ↔ i ∉ loose ∧ (s.entry i).state = .held
  source : ∀ i src, i ∈ s.sourceQueue src ↔ i ∉ loose ∧ (s.entry i).state = .complete ∧ (s.entry i).source = src
  sourceOnce : ∀ src, (s.sourceQueue src).Nodup
  sending : ∀ i f, s.tx = some f → f.what = .response i → i ∉ loose ∧ (s.entry i).state = .sending

theorem State.placed_iff (s : State) : s.Placed ↔ s.PlacedBut ∅ none := by
  constructor
  · intro h
    refine ⟨fun b it hi => ⟨Finset.notMem_empty _, h.queued b it hi⟩, h.queuedOnce,
      fun b it _ hi => ⟨Finset.notMem_empty _, h.served b it hi⟩,
      fun i _ => ⟨h.branches i, h.watching i, h.waiting i, h.answered i⟩, ?_, h.timerOnce, ?_, ?_, h.sourceOnce,
      fun i f hf hw => ⟨Finset.notMem_empty _, h.sending i f hf hw⟩⟩
    · exact fun i => (h.timer i).trans (by simp)
    · exact fun i => (h.held i).symm.trans (by simp)
    · exact fun i src => (h.source i src).trans (by simp)
  · intro h
    refine ⟨fun b it hi => (h.queued b it hi).2, h.queuedOnce, fun b it hi => (h.served b it (by simp) hi).2,
      fun i => (h.entry i (by simp)).branches, fun i => (h.entry i (by simp)).watching, ?_, h.timerOnce,
      fun i => (h.entry i (by simp)).waiting, ?_, ?_, h.sourceOnce, fun i => (h.entry i (by simp)).answered,
      fun i f hf hw => (h.sending i f hf hw).2⟩
    · exact fun i => (h.timer i).trans (by simp)
    · exact fun i => ((h.held i).trans (by simp)).symm
    · exact fun i src => (h.source i src).trans (by simp)

/-- A queue holds the item, or an engine other than `off` serves it. -/
def State.Refers (s : State) (off : Option BranchId) (it : Item) : Prop :=
  ∃ b, it ∈ (s.engine b).queue ∨ (off ≠ some b ∧ (s.engine b).inService = some it)

theorem State.Refers.of_engines {s t : State} {off : Option BranchId} {it : Item} (h : t.engines = s.engines) :
    t.Refers off it ↔ s.Refers off it := by
  simp only [State.Refers, State.engine, h]

theorem State.PlacedBut.of_refers {s : State} {loose : Finset EntryId} {off : Option BranchId} (h : s.PlacedBut loose off)
    {it : Item} (r : s.Refers off it) : it.entry ∉ loose ∧ (s.entry it.entry).onBranches ∧
      ∃ m, s.member it = some m ∧ (m.state = .pending ∨ m.state = .inService) := by
  obtain ⟨b, queued | ⟨on, served⟩⟩ := r
  · obtain ⟨placed, works, m, hm, -, hs⟩ := h.queued b it queued
    exact ⟨placed, works, m, hm, .inl hs⟩
  · obtain ⟨placed, active, m, hm, -, hs⟩ := h.served b it on served
    exact ⟨placed, .inr active, m, hm, .inr hs⟩

theorem State.member_of_entry {s t : State} {it : Item} (h : t.entry it.entry = s.entry it.entry) :
    t.member it = s.member it := by
  simp only [State.member, h]

/-! ### What leaves the places as they are -/

/-- From `s` to `t` the entries in place, the timers, the pending commit and the source queues stay; items may leave the branch
queues and the engines, and the frame may leave TTXD. -/
structure State.Within (loose : Finset EntryId) (off off' : Option BranchId) (s t : State) : Prop where
  entry : ∀ i, i ∉ loose → t.entry i = s.entry i
  queue : ∀ b, (t.engine b).queue.Sublist (s.engine b).queue
  served : ∀ b it, off' ≠ some b → (t.engine b).inService = some it → off ≠ some b ∧ (s.engine b).inService = some it
  timers : t.timers.map (·.entry) = s.timers.map (·.entry)
  commit : t.routes.pendingCommit.map (·.entry) = s.routes.pendingCommit.map (·.entry)
  source : ∀ src, t.sourceQueue src = s.sourceQueue src
  tx : t.tx = s.tx ∨ t.tx = none

theorem State.PlacedBut.within {s t : State} {loose : Finset EntryId} {off off' : Option BranchId}
    (h : s.PlacedBut loose off) (w : State.Within loose off off' s t) : t.PlacedBut loose off' := by
  have entry {i : EntryId} (hi : i ∉ loose) : t.entry i = s.entry i := w.entry i hi
  refine ⟨fun b it hi => ?_, fun b => ?_, fun b it on hi => ?_, fun i hi => ?_, fun i => ?_, ?_, fun i => ?_, fun i src => ?_,
    fun src => ?_, fun i f hf hw => ?_⟩
  · obtain ⟨placed, works, m, hm, rest⟩ := h.queued b it ((w.queue b).subset hi)
    exact ⟨placed, by rwa [entry placed], m, by rwa [State.member_of_entry (entry placed)], rest⟩
  · exact List.Nodup.sublist ((w.queue b).map _) (h.queuedOnce b)
  · obtain ⟨on', served⟩ := w.served b it on hi
    obtain ⟨placed, active, m, hm, rest⟩ := h.served b it on' served
    exact ⟨placed, by rwa [entry placed], m, by rwa [State.member_of_entry (entry placed)], rest⟩
  · rw [entry hi]
    exact h.entry i hi
  · rw [w.timers, h.timer]
    exact and_congr_right fun hi => by rw [entry hi]
  · rw [w.timers]
    exact h.timerOnce
  · rw [w.commit, h.held]
    exact and_congr_right fun hi => by rw [entry hi]
  · rw [w.source, h.source]
    exact and_congr_right fun hi => by rw [entry hi]
  · rw [w.source]
    exact h.sourceOnce src
  · rcases w.tx with same | none
    · obtain ⟨placed, sending⟩ := h.sending i f (same ▸ hf) hw
      exact ⟨placed, by rwa [entry placed]⟩
    · rw [none] at hf
      cases hf

section Elementary

variable {s : State} {loose : Finset EntryId} {off : Option BranchId}

/-- Nothing of what decides the places differs. -/
theorem State.PlacedBut.of_same {t : State} (h : s.PlacedBut loose off) (table : t.table.entries = s.table.entries)
    (engines : t.engines = s.engines) (timers : t.timers = s.timers)
    (commit : t.routes.pendingCommit = s.routes.pendingCommit)
    (queues : t.arbiter.branchQueues = s.arbiter.branchQueues ∧ t.arbiter.ctlQueue = s.arbiter.ctlQueue)
    (tx : t.tx = s.tx ∨ t.tx = none) : t.PlacedBut loose off := by
  refine h.within ⟨fun i _ => by simp only [State.entry, table], fun b => by simp only [State.engine, engines]; rfl,
    fun b it on hi => ⟨on, by simpa only [State.engine, engines] using hi⟩, by rw [timers], by rw [commit], fun src => ?_, tx⟩
  cases src <;> simp only [State.sourceQueue, queues.1, queues.2]

theorem State.PlacedBut.hand (h : s.PlacedBut loose off) (x : Notice) : (s.hand x).PlacedBut loose off :=
  h.of_same rfl rfl rfl rfl ⟨rfl, rfl⟩ (.inl rfl)

/-- The record of a loose entry may be anything. -/
theorem State.PlacedBut.setEntry_loose (h : s.PlacedBut loose off) {i : EntryId} (hi : i ∈ loose) (e : Entry) :
    (s.setEntry i e).PlacedBut loose off := by
  refine h.within ⟨fun j hj => ?_, fun _ => .refl _, fun _ _ on hi => ⟨on, hi⟩, rfl, rfl, fun src => ?_, .inl rfl⟩
  · exact s.setEntry_entry_ne e fun same => hj (same ▸ hi)
  · cases src <;> rfl

theorem State.PlacedBut.freeEntry_loose (h : s.PlacedBut loose off) {i : EntryId} (hi : i ∈ loose) :
    (s.freeEntry i).PlacedBut loose off := by
  have work := State.onlyWork_closed.freeEntry s i
  have arbiter : (s.freeEntry i).arbiter = s.arbiter := by
    unfold State.freeEntry
    split <;> rfl
  refine h.within ⟨fun j hj => ?_, fun b => ?_, fun b it on hi => ⟨on, ?_⟩, by rw [State.freeEntry_timers], ?_, fun src => ?_,
    .inl work.tx⟩
  · exact s.freeEntry_entry_ne fun same => hj (same ▸ hi)
  · rw [State.engine_eq _ _ b (s.freeEntry_engines i)]
  · rwa [State.engine_eq _ _ b (s.freeEntry_engines i)] at hi
  · rw [work.routes]
  · cases src <;> simp only [State.sourceQueue, arbiter]

/-- An engine is replaced by one with no more items. -/
theorem State.PlacedBut.setEngine (h : s.PlacedBut loose off) {b : BranchId} {g : Engine}
    (queue : g.queue.Sublist (s.engine b).queue) {off' : Option BranchId}
    (elsewhere : ∀ c, c ≠ b → off' ≠ some c → off ≠ some c)
    (served : ∀ it, off' ≠ some b → g.inService = some it → off ≠ some b ∧ (s.engine b).inService = some it) :
    (s.setEngine b g).PlacedBut loose off' := by
  refine h.within ⟨fun _ _ => rfl, fun c => ?_, fun c it on hi => ?_, rfl, rfl, fun src => ?_, .inl rfl⟩
  · rw [State.setEngine_engine]
    split
    · rename_i hc
      rwa [hc]
    · exact .refl _
  · rw [State.setEngine_engine] at hi
    split at hi
    · rename_i hc
      subst hc
      exact served it on hi
    · rename_i hc
      exact ⟨elsewhere c hc on, hi⟩
  · cases src <;> rfl

/-- An engine is replaced by one with the same item in service and no more items in its queue. -/
theorem State.PlacedBut.setEngine_kept (h : s.PlacedBut loose off) {b : BranchId} {g : Engine}
    (queue : g.queue.Sublist (s.engine b).queue) (inService : g.inService = (s.engine b).inService) :
    (s.setEngine b g).PlacedBut loose off :=
  h.setEngine queue (fun _ _ on => on) fun _ on hi => ⟨on, inService ▸ hi⟩

/-- The item in service leaves the engine. -/
theorem State.PlacedBut.setEngine_unserved (h : s.PlacedBut loose off) {b : BranchId} {g : Engine}
    (queue : g.queue.Sublist (s.engine b).queue) (inService : g.inService = none) {off' : Option BranchId}
    (elsewhere : ∀ c, c ≠ b → off' ≠ some c → off ≠ some c) : (s.setEngine b g).PlacedBut loose off' :=
  h.setEngine queue elsewhere fun it _ hi => by rw [inService] at hi; cases hi

/-- Whatever an engine serves may be disregarded. -/
theorem State.PlacedBut.disregard (h : s.PlacedBut loose none) (b : BranchId) : s.PlacedBut loose (some b) :=
  { h with served := fun c it _ => h.served c it (by simp) }

/-- An item joins the tail of a queue. -/
theorem State.PlacedBut.appendItem (h : s.PlacedBut loose off) {b : BranchId} {it : Item} {m : Member}
    (placed : it.entry ∉ loose) (works : (s.entry it.entry).onBranches) (member : s.member it = some m)
    (branch : m.branch = b) (pending : m.state = .pending) (new : ∀ x ∈ (s.engine b).queue, x.entry ≠ it.entry) :
    (s.appendItem b it).PlacedBut loose off := by
  have queue (c : BranchId) : ((s.appendItem b it).engine c).queue =
      if c = b then (s.engine b).queue ++ [it] else (s.engine c).queue := by
    simp only [State.appendItem, State.setEngine_engine]
    split <;> rfl
  have inService (c : BranchId) : ((s.appendItem b it).engine c).inService = (s.engine c).inService := by
    simp only [State.appendItem, State.setEngine_engine]
    split
    · rename_i hc
      rw [hc]
    · rfl
  refine ⟨fun c x hx => ?_, fun c => ?_, fun c x on hx => ?_, h.entry, h.timer, h.timerOnce, h.held, h.source, h.sourceOnce,
    h.sending⟩
  · rw [queue] at hx
    split at hx
    · rename_i hc
      subst hc
      rcases List.mem_append.mp hx with hx | hx
      · exact h.queued c x hx
      · rw [List.mem_singleton] at hx
        subst hx
        exact ⟨placed, works, m, member, branch, pending⟩
    · exact h.queued c x hx
  · rw [queue]
    split
    · rename_i hc
      subst hc
      rw [List.map_append, List.nodup_append]
      refine ⟨h.queuedOnce c, by simp, fun i hi j hj => ?_⟩
      obtain ⟨x, hx, rfl⟩ := List.mem_map.mp hi
      rw [List.map_singleton, List.mem_singleton] at hj
      subst hj
      exact new x hx
    · exact h.queuedOnce c
  · rw [inService] at hx
    exact h.served c x on hx

/-! ### Entries that leave their place and take one -/

/-- The record of an entry in its place is replaced: its state stays or goes from QUEUED to ACTIVE, and the members that items
refer to stay. -/
theorem State.PlacedBut.setEntry_placed (h : s.PlacedBut loose off) {i : EntryId} {e : Entry} (fits : e.WellPlaced)
    (state : e.state = (s.entry i).state ∨ ((s.entry i).state = .queued ∧ e.state = .active))
    (source : e.source = (s.entry i).source)
    (members : ∀ it, it.entry = i → s.Refers off it → e.members[it.member]? = s.member it) :
    (s.setEntry i e).PlacedBut loose off := by
  have states {j : EntryId} {st : EntryState} (queued : st ≠ .queued) (active : st ≠ .active) :
      ((s.setEntry i e).entry j).state = st ↔ (s.entry j).state = st := by
    rw [State.setEntry_entry]
    split
    · rename_i hj
      subst hj
      rcases state with same | ⟨before, after⟩
      · rw [same]
      · rw [before, after]
        exact ⟨fun hs => absurd hs.symm active, fun hs => absurd hs.symm queued⟩
    · rfl
  have works {j : EntryId} (hj : (s.entry j).onBranches) : ((s.setEntry i e).entry j).onBranches := by
    rw [State.setEntry_entry]
    split
    · rename_i same
      subst same
      rcases state with same | ⟨-, after⟩
      · rwa [Entry.onBranches, same]
      · exact .inr after
    · exact hj
  have active {j : EntryId} (hj : (s.entry j).state = .active) : ((s.setEntry i e).entry j).state = .active := by
    rw [State.setEntry_entry]
    split
    · rename_i same
      subst same
      rcases state with same | ⟨-, after⟩
      · rwa [same]
      · exact after
    · exact hj
  have sources (j : EntryId) : ((s.setEntry i e).entry j).source = (s.entry j).source := by
    rw [State.setEntry_entry]
    split
    · rename_i hj
      rw [hj, source]
    · rfl
  have member {it : Item} (r : s.Refers off it) : (s.setEntry i e).member it = s.member it := by
    by_cases hi : it.entry = i
    · rw [State.member, hi, State.setEntry_entry_self]
      exact members it hi r
    · exact State.member_of_entry (s.setEntry_entry_ne e hi)
  refine ⟨fun b it hi => ?_, h.queuedOnce, fun b it on hi => ?_, fun j hj => ?_, fun j => ?_, h.timerOnce, fun j => ?_,
    fun j src => ?_, h.sourceOnce, fun j f hf hw => ?_⟩
  · obtain ⟨placed, worked, rest⟩ := h.queued b it hi
    exact ⟨placed, works worked, by rwa [member ⟨b, .inl hi⟩]⟩
  · obtain ⟨placed, served, rest⟩ := h.served b it on hi
    exact ⟨placed, active served, by rwa [member ⟨b, .inr ⟨on, hi⟩⟩]⟩
  · rw [State.setEntry_entry]
    split
    · exact fits
    · exact h.entry j hj
  · rw [states (by decide) (by decide)]
    exact h.timer j
  · rw [states (by decide) (by decide)]
    exact h.held j
  · rw [states (by decide) (by decide), sources]
    exact h.source j src
  · rw [states (by decide) (by decide)]
    exact h.sending j f hf hw

/-- An entry to which nothing refers becomes loose. -/
theorem State.PlacedBut.loosen (h : s.PlacedBut loose off) {i : EntryId} (free : ∀ it, it.entry = i → ¬ s.Refers off it)
    (waiting : (s.entry i).state ≠ .waiting) (held : (s.entry i).state ≠ .held) (complete : (s.entry i).state ≠ .complete)
    (silent : ∀ f, s.tx = some f → f.what ≠ .response i) : s.PlacedBut (insert i loose) off := by
  have other {j : EntryId} {st : EntryState} (ne : (s.entry i).state ≠ st) :
      (j ∉ insert i loose ∧ (s.entry j).state = st) ↔ (j ∉ loose ∧ (s.entry j).state = st) := by
    rw [Finset.mem_insert, not_or]
    refine ⟨fun ⟨hj, hs⟩ => ⟨hj.2, hs⟩, fun ⟨hj, hs⟩ => ⟨⟨fun same => ?_, hj⟩, hs⟩⟩
    exact ne (same ▸ hs)
  have apart {it : Item} (r : s.Refers off it) (placed : it.entry ∉ loose) : it.entry ∉ insert i loose := by
    rw [Finset.mem_insert, not_or]
    exact ⟨fun same => free it same r, placed⟩
  refine ⟨fun b it hi => ?_, h.queuedOnce, fun b it on hi => ?_, fun j hj => ?_, fun j => ?_, h.timerOnce, fun j => ?_,
    fun j src => ?_, h.sourceOnce, fun j f hf hw => ?_⟩
  · obtain ⟨placed, rest⟩ := h.queued b it hi
    exact ⟨apart ⟨b, .inl hi⟩ placed, rest⟩
  · obtain ⟨placed, rest⟩ := h.served b it on hi
    exact ⟨apart ⟨b, .inr ⟨on, hi⟩⟩ placed, rest⟩
  · exact h.entry j fun inside => hj (Finset.mem_insert_of_mem inside)
  · rw [h.timer, other waiting]
  · rw [h.held, other held]
  · rw [h.source, ← and_assoc, ← and_assoc, other complete]
  · obtain ⟨placed, sending⟩ := h.sending j f hf hw
    rw [Finset.mem_insert, not_or]
    exact ⟨⟨fun same => silent f hf (same ▸ hw), placed⟩, sending⟩

/-- A loose entry stands in its place when its state asks for no timer, no pending commit and no source. -/
theorem State.PlacedBut.settleRest {i : EntryId} (h : s.PlacedBut (insert i loose) off)
    (fits : (s.entry i).WellPlaced) (waiting : (s.entry i).state ≠ .waiting) (held : (s.entry i).state ≠ .held)
    (complete : (s.entry i).state ≠ .complete) : s.PlacedBut loose off := by
  have other {j : EntryId} {st : EntryState} (ne : (s.entry i).state ≠ st) :
      (j ∉ insert i loose ∧ (s.entry j).state = st) ↔ (j ∉ loose ∧ (s.entry j).state = st) := by
    rw [Finset.mem_insert, not_or]
    refine ⟨fun ⟨hj, hs⟩ => ⟨hj.2, hs⟩, fun ⟨hj, hs⟩ => ⟨⟨fun same => ?_, hj⟩, hs⟩⟩
    exact ne (same ▸ hs)
  have inside {j : EntryId} (hj : j ∉ insert i loose) : j ∉ loose := fun inside => hj (Finset.mem_insert_of_mem inside)
  refine ⟨fun b it hi => ?_, h.queuedOnce, fun b it on hi => ?_, fun j hj => ?_, fun j => ?_, h.timerOnce, fun j => ?_,
    fun j src => ?_, h.sourceOnce, fun j f hf hw => ?_⟩
  · obtain ⟨placed, rest⟩ := h.queued b it hi
    exact ⟨inside placed, rest⟩
  · obtain ⟨placed, rest⟩ := h.served b it on hi
    exact ⟨inside placed, rest⟩
  · by_cases same : j = i
    · rwa [same]
    · exact h.entry j (by simp [same, hj])
  · rw [h.timer, other waiting]
  · rw [h.held, other held]
  · rw [h.source, ← and_assoc, ← and_assoc, other complete]
  · obtain ⟨placed, rest⟩ := h.sending j f hf hw
    exact ⟨inside placed, rest⟩

/-- The queue of a source after an entry joined one. -/
theorem State.join_sourceQueue (s : State) (src src' : Source) (i : EntryId) :
    (s.setArbiter (s.arbiter.join src i)).sourceQueue src' =
      if src = src' ∧ src ≠ .ntc then s.sourceQueue src' ++ [i] else s.sourceQueue src' := by
  cases src with
  | branch b =>
    cases src' with
    | branch c =>
      by_cases hb : b = c
      · subst hb
        simp [State.sourceQueue, Arbiter.join]
      · simp [State.sourceQueue, Arbiter.join, hb, Table.get_set_ne _ _ (Ne.symm hb)]
    | ctl => simp [State.sourceQueue, Arbiter.join]
    | ntc => simp [State.sourceQueue]
  | ctl => cases src' <;> simp [State.sourceQueue, Arbiter.join]
  | ntc => simp [State.sourceQueue, Arbiter.join]

/-- A loose entry completes into its source. -/
theorem State.PlacedBut.completeEntry {i : EntryId} (h : s.PlacedBut (insert i loose) off) (apart : i ∉ loose)
    (branches : ((s.entry i).members.map (·.branch)).Nodup)
    (watching : (s.entry i).watch.isSome = true → (s.entry i).members.length ≤ 1)
    (answered : (s.entry i).source ≠ .ntc) (st : Status) (r : Reply) : (s.completeEntry i st r).PlacedBut loose off := by
  have entry (j : EntryId) := s.completeEntry_entry i j st r
  have inside {j : EntryId} (hj : j ∉ insert i loose) : j ≠ i ∧ j ∉ loose := by simpa using hj
  have queues (src : Source) : (s.completeEntry i st r).sourceQueue src =
      if (s.entry i).source = src ∧ (s.entry i).source ≠ .ntc then s.sourceQueue src ++ [i] else s.sourceQueue src :=
    State.join_sourceQueue (s.setEntry i _) _ src i
  have absent (src : Source) : i ∉ s.sourceQueue src := fun hi => ((h.source i src).mp hi).1 (Finset.mem_insert_self i loose)
  have other {j : EntryId} {st' : EntryState} (ne : st' ≠ .complete) :
      (j ∉ insert i loose ∧ (s.entry j).state = st') ↔ (j ∉ loose ∧ ((s.completeEntry i st r).entry j).state = st') := by
    rw [entry]
    by_cases same : j = i
    · subst same
      simp [apart, ne.symm]
    · simp [same]
  have member {it : Item} (hi : it.entry ≠ i) : (s.completeEntry i st r).member it = s.member it :=
    State.member_of_entry (by rw [entry, if_neg hi])
  refine ⟨fun b it hi => ?_, h.queuedOnce, fun b it on hi => ?_, fun j hj => ?_, fun j => ?_, h.timerOnce, fun j => ?_,
    fun j src => ?_, fun src => ?_, fun j f hf hw => ?_⟩
  · obtain ⟨placed, works, rest⟩ := h.queued b it hi
    obtain ⟨ne, placed⟩ := inside placed
    exact ⟨placed, by rwa [entry, if_neg ne], by rwa [member ne]⟩
  · obtain ⟨placed, active, rest⟩ := h.served b it on hi
    obtain ⟨ne, placed⟩ := inside placed
    exact ⟨placed, by rwa [entry, if_neg ne], by rwa [member ne]⟩
  · rw [entry]
    split
    · exact ⟨branches, watching, nofun, answered⟩
    · rename_i ne
      exact h.entry j (by simp [ne, hj])
  · exact (h.timer j).trans (other (by decide))
  · exact (h.held j).trans (other (by decide))
  · rw [queues, entry]
    by_cases same : j = i
    · subst same
      by_cases hsrc : (s.entry j).source = src
      · simp [hsrc, apart, hsrc ▸ answered]
      · simp [hsrc, apart, absent]
    · have mem : j ∈ (if (s.entry i).source = src ∧ (s.entry i).source ≠ .ntc then s.sourceQueue src ++ [i]
          else s.sourceQueue src) ↔ j ∈ s.sourceQueue src := by
        split <;> simp [same]
      rw [mem, h.source, if_neg same]
      simp [same]
  · rw [queues]
    split
    · exact List.nodup_append.mpr ⟨h.sourceOnce src, by simp, fun a ha b hb => by
        rw [List.mem_singleton] at hb
        rintro rfl
        exact absent src (hb ▸ ha)⟩
    · exact h.sourceOnce src
  · obtain ⟨placed, sending⟩ := h.sending j f hf hw
    obtain ⟨ne, placed⟩ := inside placed
    exact ⟨placed, by rwa [entry, if_neg ne]⟩

theorem Entry.free_wellPlaced : Entry.free.WellPlaced := ⟨by simp [Entry.free], nofun, nofun, by decide⟩

/-- A loose entry goes FREE. -/
theorem State.PlacedBut.freeEntry {i : EntryId} (h : s.PlacedBut (insert i loose) off)
    (used : (s.entry i).inUse = true) : (s.freeEntry i).PlacedBut loose off := by
  have freed : (s.freeEntry i).entry i = Entry.free := by rw [State.freeEntry_entry s i i used, if_pos rfl]
  refine (h.freeEntry_loose (Finset.mem_insert_self i loose)).settleRest ?_ ?_ ?_ ?_ <;> rw [freed]
  · exact Entry.free_wellPlaced
  · decide
  · decide
  · decide

theorem State.PlacedBut.endPosted {i : EntryId} (h : s.PlacedBut (insert i loose) off)
    (used : (s.entry i).inUse = true) (st : Status) : (s.endPosted i st).PlacedBut loose off := by
  simp only [State.endPosted]
  split
  · exact h.freeEntry used
  · exact (h.freeEntry used).hand _

theorem State.PlacedBut.finishEntry {i : EntryId} (h : s.PlacedBut (insert i loose) off) (apart : i ∉ loose)
    (used : (s.entry i).inUse = true) (branches : ((s.entry i).members.map (·.branch)).Nodup)
    (watching : (s.entry i).watch.isSome = true → (s.entry i).members.length ≤ 1)
    (answered : (s.entry i).source ≠ .ntc) : (s.finishEntry i).PlacedBut loose off := by
  simp only [State.finishEntry]
  split
  · exact h.endPosted used _
  · exact h.completeEntry apart branches watching answered _ _

/-- An item that something refers to keeps its entry unfinished. -/
theorem State.PlacedBut.unfinished_of_refers (h : s.PlacedBut loose off) {it : Item} (r : s.Refers off it) :
    (s.entry it.entry).unfinished = true := by
  obtain ⟨-, -, m, member, state⟩ := h.of_refers r
  exact List.any_eq_true.mpr ⟨m, List.mem_of_getElem? member, by rcases state with hs | hs <;> simp [Member.unfinished, hs]⟩

theorem State.PlacedBut.silent_of_onBranches (h : s.PlacedBut loose off) {i : EntryId} (works : (s.entry i).onBranches) :
    ∀ f, s.tx = some f → f.what ≠ .response i := fun f hf hw => by
  have sending := (h.sending i f hf hw).2
  rcases works with hs | hs <;> rw [hs] at sending <;> cases sending

/-- An entry on its branches to which nothing refers becomes loose. -/
theorem State.PlacedBut.loosen_onBranches (h : s.PlacedBut loose off) {i : EntryId} (works : (s.entry i).onBranches)
    (free : ∀ it, it.entry = i → ¬ s.Refers off it) : s.PlacedBut (insert i loose) off := by
  refine h.loosen free ?_ ?_ ?_ (h.silent_of_onBranches works) <;>
    rcases works with hs | hs <;> rw [hs] <;> decide

/-- The completion test of an entry in its place. -/
theorem State.PlacedBut.settle (h : s.PlacedBut loose off) {i : EntryId} (placed : i ∉ loose) :
    (s.settle i).PlacedBut loose off := by
  have fits := h.entry i placed
  have finished (works : (s.entry i).onBranches) (done : ¬ (s.entry i).unfinished = true) :
      (s.finishEntry i).PlacedBut loose off := by
    refine (h.loosen_onBranches works ?_).finishEntry placed ?_ fits.branches fits.watching fits.answered
    · rintro it rfl r
      exact done (h.unfinished_of_refers r)
    · rcases works with hs | hs <;> simp [Entry.inUse, hs]
  simp only [State.settle]
  split
  · rename_i hs
    split
    · exact h
    · exact finished (.inl hs) ‹_›
  · rename_i hs
    split
    · exact h
    · exact finished (.inr hs) ‹_›
  · rename_i hs
    obtain ⟨m, members, pending⟩ := fits.waiting hs
    have unfinished : (s.entry i).unfinished = true := by simp [Entry.unfinished, members, Member.unfinished, pending]
    rw [if_pos unfinished]
    exact h
  all_goals exact h

/-! ### Members -/

theorem Entry.setMember_branches (e : Entry) (k : Nat) (st : MemberState) (o : Option Status) :
    (e.setMember k st o).members.map (·.branch) = e.members.map (·.branch) := by
  refine List.ext_getElem? fun j => ?_
  simp only [Entry.setMember, List.getElem?_map, List.getElem?_modify]
  split
  · cases e.members[j]? <;> rfl
  · cases e.members[j]? <;> rfl

theorem Entry.setMember_length (e : Entry) (k : Nat) (st : MemberState) (o : Option Status) :
    (e.setMember k st o).members.length = e.members.length := by simp [Entry.setMember]

theorem Entry.setMember_getElem?_ne (e : Entry) {k j : Nat} (st : MemberState) (o : Option Status) (h : k ≠ j) :
    (e.setMember k st o).members[j]? = e.members[j]? := by
  simp [Entry.setMember, h]

theorem Entry.setMember_getElem?_self (e : Entry) {k : Nat} {m : Member} (st : MemberState) (o : Option Status)
    (h : e.members[k]? = some m) :
    (e.setMember k st o).members[k]? = some { m with state := st, outcome := o } := by
  simp [Entry.setMember, h]

/-- A member that no item refers to is set. -/
theorem State.PlacedBut.setMember (h : s.PlacedBut loose off) {it : Item} (placed : it.entry ∉ loose)
    (free : ¬ s.Refers off it) (waiting : (s.entry it.entry).state ≠ .waiting) (st : MemberState) (o : Option Status) :
    (s.setMember it st o).PlacedBut loose off := by
  have fits := h.entry it.entry placed
  refine h.setEntry_placed ⟨?_, ?_, fun hs => absurd hs waiting, fits.answered⟩ (.inl rfl) rfl fun x hx r => ?_
  · rw [Entry.setMember_branches]
    exact fits.branches
  · rw [Entry.setMember_length]
    exact fits.watching
  · have other : it.member ≠ x.member := fun same => by
      have : x = it := by cases x; cases it; simp_all
      exact free (this ▸ r)
    rw [Entry.setMember_getElem?_ne _ _ _ other, State.member, hx]

theorem State.PlacedBut.finishMember (h : s.PlacedBut loose off) {it : Item} (placed : it.entry ∉ loose)
    (free : ¬ s.Refers off it) (waiting : (s.entry it.entry).state ≠ .waiting) (o : Status) :
    (s.finishMember it o).PlacedBut loose off :=
  (h.setMember placed free waiting _ _).settle placed

/-- The one member of a loose entry at work ends: the entry completes or goes FREE. -/
theorem State.PlacedBut.endOnlyMember {i : EntryId} {m : Member} (h : s.PlacedBut (insert i loose) off) (apart : i ∉ loose)
    (waits : (s.entry i).state = .waiting) (members : (s.entry i).members = [m]) (answered : (s.entry i).source ≠ .ntc)
    {st : MemberState} (ends : st = .finished ∨ st = .dropped) (o : Option Status) :
    ((s.setMember ⟨i, 0⟩ st o).settle i).PlacedBut loose off := by
  have entry : (s.setMember ⟨i, 0⟩ st o).entry i = { s.entry i with members := [{ m with state := st, outcome := o }] } := by
    simp [State.setMember, Entry.setMember, members]
  have loosened := h.setEntry_loose (Finset.mem_insert_self i loose) ((s.entry i).setMember 0 st o)
  have unfinished : ((s.setMember ⟨i, 0⟩ st o).entry i).unfinished = false := by
    rcases ends with rfl | rfl <;> simp [entry, Entry.unfinished, Member.unfinished]
  have settled : (s.setMember ⟨i, 0⟩ st o).settle i = (s.setMember ⟨i, 0⟩ st o).finishEntry i := by
    have hs : ((s.setMember ⟨i, 0⟩ st o).entry i).state = .waiting := by rw [entry]; exact waits
    simp [State.settle, hs, unfinished]
  rw [settled]
  refine State.PlacedBut.finishEntry loosened apart ?_ ?_ ?_ ?_
  · exact (congrArg Entry.inUse entry).trans (by simp [Entry.inUse, waits])
  · exact (congrArg (fun e : Entry => (e.members.map (·.branch)).Nodup) entry).mpr (by simp)
  · intro _
    exact (congrArg (fun e : Entry => e.members.length ≤ 1) entry).mpr (by simp)
  · exact (congrArg (fun e : Entry => e.source ≠ .ntc) entry).mpr answered

/-- The state of an entry after a completion test. -/
theorem State.settle_state (s : State) (i j : EntryId) :
    ((s.settle i).entry j).state = (s.entry j).state ∨ ((s.settle i).entry j).state = .complete ∨
      ((s.settle i).entry j).state = .free := by
  by_cases same : j = i
  · subst same
    have finished (used : (s.entry j).inUse = true) : ((s.finishEntry j).entry j).state = .complete ∨
        ((s.finishEntry j).entry j).state = .free := by
      have freed : ((s.freeEntry j).entry j).state = .free := by
        rw [State.freeEntry_entry s j j used, if_pos rfl]
        rfl
      simp only [State.finishEntry]
      split
      · simp only [State.endPosted]
        split
        · exact .inr freed
        · exact .inr freed
      · exact .inl (by rw [State.completeEntry_entry, if_pos rfl])
    simp only [State.settle]
    split
    any_goals exact .inl rfl
    all_goals
      rename_i hs
      split
      · exact .inl rfl
      · exact .inr (finished (by simp [Entry.inUse, hs]))
  · exact .inl (by rw [State.settle_entry_ne s same])

theorem State.finishMember_state (s : State) (it : Item) (o : Status) (j : EntryId) :
    ((s.finishMember it o).entry j).state = (s.entry j).state ∨ ((s.finishMember it o).entry j).state = .complete ∨
      ((s.finishMember it o).entry j).state = .free := by
  have set : ((s.setMember it .finished (some o)).entry j).state = (s.entry j).state := by
    rw [State.setMember, State.setEntry_entry]
    split
    · rename_i hj
      rw [hj]
      rfl
    · rfl
  rw [← set]
  exact State.settle_state _ _ j

theorem State.foldl_finishMember_entry_ne (o : Status) {j : EntryId} :
    ∀ (l : List Item) (s : State), (∀ it ∈ l, it.entry ≠ j) →
      (l.foldl (fun s it => s.finishMember it o) s).entry j = s.entry j
  | [], _, _ => rfl
  | it :: l, s, h => by
    rw [List.foldl_cons, State.foldl_finishMember_entry_ne o l _ fun x hx => h x (List.mem_cons_of_mem _ hx),
      State.finishMember_entry_ne s o fun same => h it List.mem_cons_self same.symm]

/-! ### A whole branch -/

/-- Items that nothing refers to any more finish one after the other. -/
theorem State.PlacedBut.finishItems (o : Status) :
    ∀ (l : List Item) {s : State}, s.PlacedBut loose off →
      (∀ it ∈ l, it.entry ∉ loose ∧ ¬ s.Refers off it ∧ (s.entry it.entry).state ≠ .waiting) →
      (l.foldl (fun s it => s.finishMember it o) s).PlacedBut loose off
  | [], _, h, _ => h
  | it :: l, s, h, hl => by
    obtain ⟨placed, free, waiting⟩ := hl it List.mem_cons_self
    refine State.PlacedBut.finishItems o l (h.finishMember placed free waiting o) fun x hx => ?_
    obtain ⟨placed, free, waiting⟩ := hl x (List.mem_cons_of_mem _ hx)
    refine ⟨placed, ?_, ?_⟩
    · rwa [State.Refers.of_engines (s.finishMember_engines it o)]
    · rcases s.finishMember_state it o x.entry with hs | hs | hs <;> rw [hs]
      · exact waiting
      · decide
      · decide

/-- Waiting watches whose timers have left the list finish one after the other. -/
theorem State.PlacedBut.finishWatches (o : Status) :
    ∀ (l : List WatchTimer) {s : State}, (l.map (·.entry)).Nodup →
      s.PlacedBut ((l.map (·.entry)).toFinset ∪ loose) off →
      (∀ x ∈ l, x.entry ∉ loose ∧ (s.entry x.entry).state = .waiting ∧ (s.entry x.entry).WellPlaced) →
      (l.foldl (fun s t => s.finishMember { entry := t.entry, member := 0 } o) s).PlacedBut loose off
  | [], _, _, h, _ => by simpa using h
  | x :: l, s, once, h, hl => by
    obtain ⟨apart, waits, fits⟩ := hl x List.mem_cons_self
    obtain ⟨m, members, -⟩ := fits.waiting waits
    rw [List.map_cons, List.nodup_cons] at once
    rw [List.map_cons, List.toFinset_cons, Finset.insert_union] at h
    have outside : x.entry ∉ (l.map (·.entry)).toFinset ∪ loose := by
      rw [Finset.mem_union, List.mem_toFinset, not_or]
      exact ⟨once.1, apart⟩
    refine State.PlacedBut.finishWatches o l once.2
      (h.endOnlyMember outside waits members fits.answered (.inl rfl) (some o)) fun y hy => ?_
    obtain ⟨apart, waits, fits⟩ := hl y (List.mem_cons_of_mem _ hy)
    have ne : y.entry ≠ x.entry := fun same => once.1 (same ▸ List.mem_map_of_mem hy)
    have kept : (s.finishMember ⟨x.entry, 0⟩ o).entry y.entry = s.entry y.entry := State.finishMember_entry_ne s o ne
    exact ⟨apart, kept ▸ waits, kept ▸ fits⟩

/-- Timers leave the list, and their entries become loose. -/
theorem State.PlacedBut.dropTimers (h : s.PlacedBut loose off) (p : WatchTimer → Bool) :
    (s.setTimers (s.timers.filter (fun t => !p t))).PlacedBut (((s.timers.filter p).map (·.entry)).toFinset ∪ loose) off := by
  set gone := ((s.timers.filter p).map (·.entry)).toFinset with hgone
  have mem_gone (i : EntryId) : i ∈ gone ↔ ∃ t ∈ s.timers, p t = true ∧ t.entry = i := by
    simp [hgone, and_assoc]
  have waits {i : EntryId} (hi : i ∈ gone) : (s.entry i).state = .waiting := by
    obtain ⟨t, ht, -, rfl⟩ := (mem_gone i).mp hi
    exact ((h.timer _).mp (List.mem_map_of_mem ht)).2
  have outside {i : EntryId} (placed : i ∉ loose) (ne : (s.entry i).state ≠ .waiting) : i ∉ gone ∪ loose := by
    rw [Finset.mem_union, not_or]
    exact ⟨fun hi => ne (waits hi), placed⟩
  have other {j : EntryId} {st : EntryState} (ne : st ≠ .waiting) :
      (j ∉ gone ∪ loose ∧ (s.entry j).state = st) ↔ (j ∉ loose ∧ (s.entry j).state = st) := by
    refine ⟨fun ⟨hj, hs⟩ => ⟨fun inside => hj (Finset.mem_union_right _ inside), hs⟩, fun ⟨hj, hs⟩ => ⟨?_, hs⟩⟩
    exact outside hj (by rw [hs]; exact ne)
  refine ⟨fun b it hi => ?_, h.queuedOnce, fun b it on hi => ?_, fun j hj => ?_, fun j => ?_, ?_, fun j => ?_,
    fun j src => ?_, h.sourceOnce, fun j f hf hw => ?_⟩
  · obtain ⟨placed, works, rest⟩ := h.queued b it hi
    exact ⟨outside placed (by rcases works with hs | hs <;> rw [hs] <;> decide), works, rest⟩
  · obtain ⟨placed, active, rest⟩ := h.served b it on hi
    exact ⟨outside placed (by rw [active]; decide), active, rest⟩
  · exact h.entry j fun inside => hj (Finset.mem_union_right _ inside)
  · rw [State.setTimers_timers]
    constructor
    · intro hj
      obtain ⟨t, ht, rfl⟩ := List.mem_map.mp hj
      obtain ⟨ht, keeps⟩ := List.mem_filter.mp ht
      obtain ⟨placed, state⟩ := (h.timer t.entry).mp (List.mem_map_of_mem ht)
      refine ⟨?_, state⟩
      rw [Finset.mem_union, not_or]
      refine ⟨fun hi => ?_, placed⟩
      obtain ⟨u, hu, goes, same⟩ := (mem_gone _).mp hi
      have : u = t := List.inj_on_of_nodup_map h.timerOnce hu ht same
      rw [this] at goes
      simp [goes] at keeps
    · rintro ⟨hj, state⟩
      rw [Finset.mem_union, not_or] at hj
      obtain ⟨t, ht, rfl⟩ := List.mem_map.mp ((h.timer j).mpr ⟨hj.2, state⟩)
      refine List.mem_map_of_mem (List.mem_filter.mpr ⟨ht, ?_⟩)
      by_contra goes
      exact hj.1 ((mem_gone _).mpr ⟨t, ht, by simpa using goes, rfl⟩)
  · rw [State.setTimers_timers]
    exact h.timerOnce.sublist (List.filter_sublist.map _)
  · exact (h.held j).trans (other (by decide)).symm
  · rw [← and_assoc]
    refine (h.source j src).trans ?_
    rw [← and_assoc]
    exact and_congr_left' (other (by decide)).symm
  · obtain ⟨placed, sending⟩ := h.sending j f hf hw
    exact ⟨outside placed (by rw [sending]; decide), sending⟩

/-- The flush of a branch keeps the places. -/
theorem State.PlacedBut.flushBranch (h : s.PlacedBut loose off) (b : BranchId) (o : Status) :
    (s.flushBranch b o).PlacedBut loose off := by
  simp only [State.flushBranch]
  set items := (s.engine b).queue with hitems
  set ended := s.timers.filter (s.timerOn b) with hended
  have emptied : ((s.setEngine b { s.engine b with queue := [] }).setTimers
      (s.timers.filter (fun t => !s.timerOn b t))).PlacedBut ((ended.map (·.entry)).toFinset ∪ loose) off :=
    State.PlacedBut.dropTimers (s := s.setEngine b { s.engine b with queue := [] })
      (h.setEngine_kept (b := b) (g := { s.engine b with queue := [] }) (List.nil_sublist _) rfl) (s.timerOn b)
  set u := (s.setEngine b { s.engine b with queue := [] }).setTimers (s.timers.filter (fun t => !s.timerOn b t)) with hu
  have entries (i : EntryId) : u.entry i = s.entry i := rfl
  have engine (c : BranchId) : u.engine c = if c = b then { s.engine b with queue := [] } else s.engine c :=
    s.setEngine_engine b c _
  have waits {x : WatchTimer} (hx : x ∈ ended) : x.entry ∉ loose ∧ (s.entry x.entry).state = .waiting :=
    (h.timer x.entry).mp (List.mem_map_of_mem (List.mem_filter.mp hx).1)
  have works {it : Item} (hi : it ∈ items) : (s.entry it.entry).state ≠ .waiting := by
    obtain ⟨-, works, -⟩ := h.queued b it hi
    rcases works with hs | hs <;> rw [hs] <;> decide
  refine State.PlacedBut.finishWatches o ended (h.timerOnce.sublist (List.filter_sublist.map _))
    (State.PlacedBut.finishItems o items emptied fun it hi => ?_) fun x hx => ?_
  · obtain ⟨placed, -, m, member, branch, pending⟩ := h.queued b it hi
    refine ⟨?_, ?_, works hi⟩
    · rw [Finset.mem_union, List.mem_toFinset, not_or]
      refine ⟨fun inside => ?_, placed⟩
      obtain ⟨x, hx, same⟩ := List.mem_map.mp inside
      exact works hi (same ▸ (waits hx).2)
    · rintro ⟨c, queued | ⟨on, served⟩⟩
      · rw [engine] at queued
        split at queued
        · simp at queued
        · rename_i hc
          obtain ⟨-, -, m', member', branch', -⟩ := h.queued c it queued
          rw [member] at member'
          cases member'
          exact hc (branch'.symm.trans branch)
      · have served' : (s.engine c).inService = some it := by
          rw [engine] at served
          split at served
          · rename_i hc
            rwa [hc]
          · exact served
        obtain ⟨-, -, m', member', -, state⟩ := h.served c it on served'
        rw [member] at member'
        cases member'
        rw [pending] at state
        cases state
  · obtain ⟨placed, state⟩ := waits hx
    have kept : (items.foldl (fun s it => s.finishMember it o) u).entry x.entry = s.entry x.entry := by
      rw [State.foldl_finishMember_entry_ne o items u fun it hi same => works hi (same ▸ state)]
      exact entries _
    rw [kept]
    exact ⟨placed, state, h.entry _ placed⟩

theorem State.PlacedBut.carryOutDisable (h : s.PlacedBut loose off) (b : BranchId) :
    (s.carryOutDisable b).PlacedBut loose off :=
  (h.flushBranch b .branchDown).setEngine_kept (.refl _) rfl

/-- The end of the item in service at an engine. -/
theorem State.PlacedBut.endItem {b : BranchId} (h : s.PlacedBut loose (some b)) : (s.endItem b).PlacedBut loose none := by
  have ended : (s.setEngine b { s.engine b with state := .idle, inService := none, copy := none, wire := .released }).PlacedBut
      loose none := h.setEngine_unserved (by exact .refl _) (by exact rfl) fun c hc _ same => hc (Option.some.inj same).symm
  simp only [State.endItem]
  split
  · exact ended.carryOutDisable b
  · exact ended

/-- The item in service at an engine is referred to by nothing else. -/
theorem State.PlacedBut.not_refers_of_served (h : s.PlacedBut loose none) {b : BranchId} {it : Item}
    (inService : (s.engine b).inService = some it) : ¬ s.Refers (some b) it := by
  obtain ⟨-, -, m, member, branch, state⟩ := h.served b it (by simp) inService
  rintro ⟨c, queued | ⟨on, served⟩⟩
  · obtain ⟨-, -, m', member', -, pending⟩ := h.queued c it queued
    rw [member] at member'
    cases member'
    rw [state] at pending
    cases pending
  · obtain ⟨-, -, m', member', branch', -⟩ := h.served c it (by simp) served
    rw [member] at member'
    cases member'
    exact on (congrArg some (branch.symm.trans branch'))

theorem State.PlacedBut.dismiss (h : s.PlacedBut loose none) (b : BranchId) (o : Status) :
    (s.dismiss b o).PlacedBut loose none := by
  unfold State.dismiss
  split
  · exact h
  · rename_i it inService
    obtain ⟨placed, active, -⟩ := h.served b it (by simp) inService
    have left : (s.setEngine b { s.engine b with inService := none }).PlacedBut loose none :=
      h.setEngine_unserved (by exact .refl _) (by exact rfl) fun _ _ _ => by simp
    refine left.finishMember placed ?_ (by rw [State.setEngine_entry, active]; decide) o
    have free := h.not_refers_of_served inService
    rintro ⟨c, refers⟩
    refine free ⟨c, ?_⟩
    rw [State.setEngine_engine] at refers
    split at refers
    · rename_i hc
      subst hc
      rcases refers with queued | ⟨-, served⟩
      · exact .inl queued
      · cases served
    · rename_i hc
      exact refers.imp id fun served => ⟨fun same => hc (Option.some.inj same).symm, served.2⟩

end Elementary

end Sys2Proof.Machine
end

section
/-! PROOFS. The places of the work under the happenings of the engines, the expiry of a watch timer, and the changes of an engine
that a SET_BRANCH makes. -/

namespace Sys2Proof.Machine

section Engines

variable {s : State} {loose : Finset EntryId} {off : Option BranchId}

/-! ### A try begins -/

theorem State.PlacedBut.beginTry (h : s.PlacedBut loose off) (b : BranchId) (p q : Bool) :
    (s.beginTry b p q).PlacedBut loose off := by
  simp only [State.beginTry]
  split <;> exact h.setEngine_kept (by exact .refl _) (by exact rfl)

/-- The engine that was disregarded serves an item that is in its place. -/
theorem State.PlacedBut.regard {b : BranchId} (h : s.PlacedBut loose (some b))
    (served : ∀ it, (s.engine b).inService = some it → it.entry ∉ loose ∧ (s.entry it.entry).state = .active ∧
      ∃ m, s.member it = some m ∧ m.branch = b ∧ m.state = .inService) : s.PlacedBut loose none :=
  { h with
    served := fun c it _ hi => by
      by_cases hc : c = b
      · subst hc
        exact served it hi
      · exact h.served c it (fun same => hc (Option.some.inj same).symm) hi }

/-- A member that no item refers to enters service. -/
theorem State.PlacedBut.serveMember (h : s.PlacedBut loose off) {it : Item} (placed : it.entry ∉ loose)
    (free : ¬ s.Refers off it) (works : (s.entry it.entry).onBranches) : (s.serveMember it).PlacedBut loose off := by
  have fits := h.entry it.entry placed
  have state : (if (s.entry it.entry).state = .queued then EntryState.active else (s.entry it.entry).state) = .active := by
    rcases works with hs | hs <;> simp [hs]
  simp only [State.serveMember]
  refine h.setEntry_placed ⟨?_, ?_, fun hs => ?_, fits.answered⟩ ?_ rfl fun x hx r => ?_
  · rw [Entry.setMember_branches]
    exact fits.branches
  · rw [Entry.setMember_length]
    exact fits.watching
  · exact absurd (state.symm.trans hs) (by decide)
  · rcases works with hs | hs
    · exact .inr ⟨hs, state⟩
    · exact .inl (state.trans hs.symm)
  · have other : it.member ≠ x.member := fun same => by
      have : x = it := by cases x; cases it; simp_all
      exact free (this ▸ r)
    rw [Entry.setMember_getElem?_ne _ _ _ other, State.member, hx]

theorem State.serveMember_entry {it : Item} {m : Member} (member : s.member it = some m)
    (works : (s.entry it.entry).onBranches) :
    ((s.serveMember it).entry it.entry).state = .active ∧
      (s.serveMember it).member it = some { m with state := .inService, outcome := none } := by
  have entry : (s.serveMember it).entry it.entry =
      { (s.entry it.entry).setMember it.member .inService none with state := .active } := by
    rw [State.serveMember, State.setEntry_entry_self]
    rcases works with hs | hs <;> simp [Entry.setMember, hs]
  rw [State.member, entry]
  exact ⟨rfl, Entry.setMember_getElem?_self _ _ _ member⟩

theorem State.PlacedBut.takeItem (h : s.PlacedBut loose none) (b : BranchId) (p q : Bool) :
    (s.takeItem b p q).PlacedBut loose none := by
  unfold State.takeItem
  split
  · split
    · exact h
    · rename_i it rest queue
      have inQueue : it ∈ (s.engine b).queue := by rw [queue]; exact List.mem_cons_self
      obtain ⟨placed, works, m, member, branch, pending⟩ := h.queued b it inQueue
      simp only
      set u := s.setEngine b { s.engine b with queue := rest, inService := some it, busyUsed := 0, checkUsed := 0 } with hu
      have left : u.PlacedBut loose (some b) :=
        h.setEngine (by rw [queue]; exact List.sublist_cons_self it rest) (fun _ _ _ => by simp) fun _ on _ => absurd rfl on
      have free : ¬ u.Refers (some b) it := by
        rintro ⟨c, queued | ⟨on, served⟩⟩
        · rw [hu, State.setEngine_engine] at queued
          split at queued
          · have once := h.queuedOnce b
            rw [queue, List.map_cons, List.nodup_cons] at once
            exact once.1 (List.mem_map_of_mem queued)
          · rename_i hc
            obtain ⟨-, -, m', member', branch', -⟩ := h.queued c it queued
            rw [member] at member'
            cases member'
            exact hc (branch'.symm.trans branch)
        · have hc : c ≠ b := fun same => on (congrArg some same.symm)
          rw [hu, State.setEngine_engine_ne _ _ hc] at served
          obtain ⟨-, -, m', member', -, state⟩ := h.served c it (by simp) served
          rw [member] at member'
          cases member'
          rw [pending] at state
          cases state
      obtain ⟨active, serving⟩ := State.serveMember_entry (s := u) member works
      refine State.PlacedBut.beginTry ((left.serveMember placed free works).regard fun x hx => ?_) b p q
      have here : ((u.serveMember it).engine b).inService = some it := by
        rw [State.engine_eq _ _ b (u.serveMember_engines it), hu, State.setEngine_engine_self]
      rw [here] at hx
      cases hx
      exact ⟨placed, active, _, serving, branch, rfl⟩
  · exact h

/-! ### A watch that waits -/

/-- The timer of a loose WAITING entry is placed. -/
theorem State.PlacedBut.placeTimer {i : EntryId} (h : s.PlacedBut (insert i loose) off) (apart : i ∉ loose)
    (fits : (s.entry i).WellPlaced) (waits : (s.entry i).state = .waiting) (n : Nat) :
    (s.placeTimer i n).PlacedBut loose off := by
  obtain ⟨pre, post, split, placed, -⟩ := s.placeTimer_split i n
  have inside {j : EntryId} (hj : j ∉ insert i loose) : j ∉ loose := fun inside => hj (Finset.mem_insert_of_mem inside)
  have other {j : EntryId} {st : EntryState} (ne : st ≠ .waiting) :
      (j ∉ insert i loose ∧ (s.entry j).state = st) ↔ (j ∉ loose ∧ (s.entry j).state = st) := by
    rw [Finset.mem_insert, not_or]
    refine ⟨fun ⟨hj, hs⟩ => ⟨hj.2, hs⟩, fun ⟨hj, hs⟩ => ⟨⟨fun same => ?_, hj⟩, hs⟩⟩
    subst same
    exact ne (hs.symm.trans waits)
  have entries : (s.placeTimer i n).timers.map (·.entry) = pre.map (·.entry) ++ i :: post.map (·.entry) := by
    rw [placed, List.map_append, List.map_cons]
  have before : s.timers.map (·.entry) = pre.map (·.entry) ++ post.map (·.entry) := by rw [split, List.map_append]
  have absent : i ∉ s.timers.map (·.entry) := fun hi => ((h.timer i).mp hi).1 (Finset.mem_insert_self i loose)
  refine ⟨fun b it hi => ?_, h.queuedOnce, fun b it on hi => ?_, fun j hj => ?_, fun j => ?_, ?_, fun j => ?_,
    fun j src => ?_, h.sourceOnce, fun j f hf hw => ?_⟩
  · obtain ⟨placed, rest⟩ := h.queued b it hi
    exact ⟨inside placed, rest⟩
  · obtain ⟨placed, rest⟩ := h.served b it on hi
    exact ⟨inside placed, rest⟩
  · by_cases same : j = i
    · subst same
      exact fits
    · exact h.entry j (by simp [same, hj])
  · have listed : j ∈ (s.placeTimer i n).timers.map (·.entry) ↔ j = i ∨ j ∈ s.timers.map (·.entry) := by
      rw [entries, before]
      simp only [List.mem_append, List.mem_cons]
      exact or_left_comm
    rw [listed, h.timer]
    by_cases same : j = i
    · subst same
      simp [apart, State.placeTimer, State.entry, ← waits]
    · simp [same, State.placeTimer, State.entry]
  · rw [entries]
    rw [before] at absent
    refine (List.nodup_middle).mpr (List.nodup_cons.mpr ⟨absent, ?_⟩)
    rw [← before]
    exact h.timerOnce
  · exact (h.held j).trans (other (by decide))
  · refine (h.source j src).trans ?_
    rw [← and_assoc, ← and_assoc, other (by decide)]
    rfl
  · obtain ⟨placed, rest⟩ := h.sending j f hf hw
    exact ⟨inside placed, rest⟩

/-- The end of a watch read: the member finishes, or the entry waits again. -/
theorem State.PlacedBut.endWatchRead (h : s.PlacedBut loose off) {it : Item} {m : Member} (placed : it.entry ∉ loose)
    (free : ¬ s.Refers off it) (active : (s.entry it.entry).state = .active) (member : s.member it = some m)
    (v : List Byte) : (s.endWatchRead it v).PlacedBut loose off := by
  have fits := h.entry it.entry placed
  have running : (s.entry it.entry).state ≠ .waiting := by rw [active]; decide
  unfold State.endWatchRead
  split
  · exact h.finishMember placed free running _
  · rename_i w watch
    simp only
    set u := s.setEntry it.entry { s.entry it.entry with watch := some (w.after v) } with hu
    have entry : u.entry it.entry = { s.entry it.entry with watch := some (w.after v) } := by
      rw [hu, State.setEntry_entry_self]
    have single : (s.entry it.entry).members.length ≤ 1 := fits.watching (by rw [watch]; rfl)
    have stored : u.PlacedBut loose off :=
      h.setEntry_placed ⟨fits.branches, fun _ => single, fun hs => absurd hs running, fits.answered⟩ (.inl rfl) rfl
        fun x hx _ => by rw [State.member, hx]
    split
    · exact stored.finishMember placed free (by rw [entry]; exact running) _
    · have members : (s.entry it.entry).members = [m] ∧ it.member = 0 := by
        have inRange := (List.getElem?_eq_some_iff.mp member).1
        have zero : it.member = 0 := by omega
        have one : (s.entry it.entry).members.length = 1 := by omega
        obtain ⟨x, hx⟩ := List.length_eq_one_iff.mp one
        rw [State.member, hx, zero] at member
        simp only [List.getElem?_cons_zero, Option.some.injEq] at member
        exact ⟨by rw [hx, member], zero⟩
      have unreferred : ∀ x : Item, x.entry = it.entry → ¬ u.Refers off x := by
        intro x hx r
        obtain ⟨-, -, m', member', -⟩ := stored.of_refers r
        have inRange := (List.getElem?_eq_some_iff.mp member').1
        rw [hx, entry] at inRange
        have same : x = it := by
          have zero : x.member = it.member := by
            rw [members.2]
            simp only [members.1, List.length_singleton] at inRange
            omega
          cases x
          cases it
          simp_all
        exact free (same ▸ r)
      have activeU : (u.entry it.entry).state = .active := by rw [entry]; exact active
      have loosened := stored.loosen_onBranches (.inr activeU) unreferred
      simp only [State.waitAgain]
      have record : (u.setEntry it.entry
          { (u.entry it.entry).setMember it.member .pending none with
            state := if ((u.entry it.entry).setMember it.member .pending none).state = .active then .waiting
              else ((u.entry it.entry).setMember it.member .pending none).state }).entry it.entry =
          { u.entry it.entry with state := .waiting, members := [{ m with state := .pending, outcome := none }] } := by
        rw [State.setEntry_entry_self]
        have hm : (u.entry it.entry).members = [m] := by rw [entry]; exact members.1
        simp [Entry.setMember, activeU, hm, members.2]
      refine (loosened.setEntry_loose (Finset.mem_insert_self _ _) _).placeTimer placed ?_ ?_ _
      · rw [record]
        refine ⟨by simp, fun _ => by simp, fun _ => ⟨_, rfl, rfl⟩, ?_⟩
        rw [entry]
        exact fits.answered
      · rw [record]

/-! ### The end of a try -/

theorem State.PlacedBut.endItemWith (h : s.PlacedBut loose none) {b : BranchId} {it : Item}
    (inService : (s.engine b).inService = some it) (o : Status) : (s.endItemWith b it o).PlacedBut loose none := by
  obtain ⟨placed, active, -⟩ := h.served b it (by simp) inService
  exact ((h.disregard b).finishMember placed (h.not_refers_of_served inService) (by rw [active]; decide) o).endItem

theorem State.PlacedBut.endItemGood (h : s.PlacedBut loose none) {b : BranchId} {it : Item}
    (inService : (s.engine b).inService = some it) (v : List Byte) : (s.endItemGood b it v).PlacedBut loose none := by
  obtain ⟨placed, active, m, member, -⟩ := h.served b it (by simp) inService
  have free := h.not_refers_of_served inService
  have running : (s.entry it.entry).state ≠ .waiting := by rw [active]; decide
  have fits := h.entry it.entry placed
  simp only [State.endItemGood]
  split
  · have stored : (s.setEntry it.entry { s.entry it.entry with data := v }).PlacedBut loose (some b) :=
      (h.disregard b).setEntry_placed ⟨fits.branches, fits.watching, fits.waiting, fits.answered⟩ (.inl rfl) rfl
        fun x hx _ => by rw [State.member, hx]
    refine (stored.finishMember placed free ?_ _).endItem
    rw [State.setEntry_entry_self]
    exact running
  · exact ((h.disregard b).endWatchRead placed free active member v).endItem
  · exact ((h.disregard b).finishMember placed free running _).endItem

theorem State.PlacedBut.endTry (h : s.PlacedBut loose none) {b : BranchId} {it : Item}
    (inService : (s.engine b).inService = some it) (r : TryResult) (p q : Bool) :
    (s.endTry b it r p q).PlacedBut loose none := by
  cases r with
  | good v => exact h.endItemGood inService v
  | busy =>
    simp only [State.endTry, State.busyEnd]
    split
    · split
      · exact State.PlacedBut.beginTry (h.setEngine_kept (by exact .refl _) (by exact rfl)) b p q
      · exact h.setEngine_kept (by exact .refl _) (by exact rfl)
    · exact h.endItemWith inService _
  | checkFailure =>
    simp only [State.endTry, State.checkEnd]
    split
    · exact State.PlacedBut.beginTry (h.setEngine_kept (by exact .refl _) (by exact rfl)) b p q
    · exact h.endItemWith inService _
  | rejected => exact h.endItemWith inService _
  | noDevice => exact h.endItemWith inService _

/-! ### Recovery -/

theorem State.PlacedBut.tryAfterRecovery (h : s.PlacedBut loose none) {b : BranchId} {it : Item}
    (inService : (s.engine b).inService = some it) : (s.tryAfterRecovery b it).PlacedBut loose none := by
  obtain ⟨placed, active, -⟩ := h.served b it (by simp) inService
  have free := h.not_refers_of_served inService
  simp only [State.tryAfterRecovery]
  split
  · exact (((h.disregard b).setMember placed free (by rw [active]; decide) _ _).settle placed).endItem
  · split
    · exact h.endItemWith inService _
    · exact h.setEngine_kept (by exact .refl _) (by exact rfl)

theorem State.PlacedBut.endBareRecovery (h : s.PlacedBut loose none) (b : BranchId) :
    (s.endBareRecovery b).PlacedBut loose none := by
  have ended (g : Engine) (queue : g.queue = (s.engine b).queue) (inService : g.inService = none) :
      (s.setEngine b g).PlacedBut loose none :=
    h.setEngine_unserved (by rw [queue]) inService fun _ _ _ => by simp
  simp only [State.endBareRecovery]
  split
  · exact State.PlacedBut.carryOutDisable (ended _ (by exact rfl) (by exact rfl)) b
  · exact ended _ (by exact rfl) (by exact rfl)

theorem Engine.afterFault_work (g : Engine) : g.afterFault.queue = g.queue ∧ g.afterFault.inService = g.inService := by
  simp only [Engine.afterFault]
  split <;> exact ⟨rfl, rfl⟩

theorem State.PlacedBut.fault (h : s.PlacedBut loose none) (b : BranchId) (r : BranchReason) :
    (s.fault b r).PlacedBut loose none := by
  have noted : (s.setEngine b { s.engine b with lastFault := r }).PlacedBut loose none :=
    h.setEngine_kept (by exact .refl _) (by exact rfl)
  have ended := ((noted.dismiss b .branchFault).flushBranch b .branchFault).hand (.branchState b .faulted r)
  obtain ⟨queue, inService⟩ := Engine.afterFault_work
    (((((s.setEngine b { s.engine b with lastFault := r }).dismiss b .branchFault).flushBranch b .branchFault).hand
      (.branchState b .faulted r)).engine b)
  exact ended.setEngine_kept (by rw [queue]) inService

theorem State.PlacedBut.endRecovery (h : s.PlacedBut loose none) (b : BranchId) (p q : Bool) :
    (s.endRecovery b p q).PlacedBut loose none := by
  simp only [State.endRecovery]
  split
  · exact h
  · split
    · split
      · split
        · rename_i it inService _
          exact h.tryAfterRecovery inService
        · rename_i it inService _
          exact h.endItemWith inService _
        · exact h.endBareRecovery b
        · exact h.endBareRecovery b
      · exact h.fault b _
    all_goals exact h

theorem State.PlacedBut.endClosingMark (h : s.PlacedBut loose none) (b : BranchId) :
    (s.endClosingMark b).PlacedBut loose none := by
  have released : (s.setEngine b { s.engine b with wire := .released }).PlacedBut loose none :=
    h.setEngine_kept (by exact .refl _) (by exact rfl)
  simp only [State.endClosingMark]
  split
  · split
    any_goals exact released
    all_goals
      split
      · rw [State.setEngine_setEngine]
        exact h.setEngine_kept (by exact .refl _) (by exact rfl)
      · exact released.carryOutDisable b
  · exact h

theorem State.EngineEvent.placedBut {t : State} {b : BranchId} (h : s.PlacedBut loose none) (e : s.EngineEvent b t) :
    t.PlacedBut loose none := by
  cases e with
  | takeItem p q => exact h.takeItem b p q
  | endExchange a p q =>
    simp only [State.endExchange]
    split
    · exact h
    · rename_i it served
      split
      · exact h
      · exact h.endTry (State.servedIn_eq_some served).2.2 _ p q
  | timeOutHold =>
    simp only [State.timeOutHold]
    split
    · exact h
    · exact h.setEngine_kept (by exact .refl _) (by exact rfl)
  | expireRetry p q =>
    simp only [State.expireRetry]
    split
    · exact h
    · exact h.beginTry b p q
  | endRecovery p q => exact h.endRecovery b p q
  | expireRecovery =>
    simp only [State.expireRecovery]
    split
    · exact h.setEngine_kept (by exact .refl _) (by exact rfl)
    · exact h
  | endAttempt p q =>
    simp only [State.endAttempt]
    split
    · split
      · exact State.PlacedBut.hand (h.setEngine_kept (by exact .refl _) (by exact rfl)) _
      · exact h.setEngine_kept (by exact .refl _) (by exact rfl)
    · exact h
  | endClosingMark => exact h.endClosingMark b

/-! ### Watch timers -/

/-- The timer of a waiting watch leaves the list, and its entry becomes loose. -/
theorem State.PlacedBut.removeTimer (h : s.PlacedBut loose off) {i : EntryId} (placed : i ∉ loose)
    (waits : (s.entry i).state = .waiting) : (s.removeTimer i).PlacedBut (insert i loose) off := by
  have dropped := h.dropTimers (fun t => t.entry == i)
  have gone : ((s.timers.filter (fun t => t.entry == i)).map (·.entry)).toFinset ∪ loose = insert i loose := by
    have listed := (h.timer i).mpr ⟨placed, waits⟩
    obtain ⟨t, ht, hi⟩ := List.mem_map.mp listed
    ext j
    simp only [Finset.mem_union, List.mem_toFinset, List.mem_map, List.mem_filter, beq_iff_eq, Finset.mem_insert]
    refine or_congr_left ⟨?_, ?_⟩
    · rintro ⟨u, ⟨-, hu⟩, rfl⟩
      exact hu
    · rintro rfl
      exact ⟨t, ⟨ht, hi⟩, hi⟩
  rw [gone] at dropped
  exact dropped

/-- Nothing refers to an entry that is not on its branches. -/
theorem State.PlacedBut.not_refers (h : s.PlacedBut loose off) {it : Item} (idle : ¬ (s.entry it.entry).onBranches) :
    ¬ s.Refers off it := fun r => idle (h.of_refers r).2.1

theorem State.PlacedBut.expireWatch (h : s.PlacedBut loose off) {i : EntryId} (placed : i ∉ loose) :
    (s.expireWatch i).PlacedBut loose off := by
  unfold State.expireWatch
  split
  · rename_i due
    simp only [Bool.and_eq_true, beq_iff_eq] at due
    have waits := due.2
    split
    · exact h
    · rename_i m member
      have fits := h.entry i placed
      obtain ⟨x, members, pending⟩ := fits.waiting waits
      have same : x = m := by
        rw [State.member, members] at member
        exact Option.some.inj member
      subst same
      set u := (s.removeTimer i).setEntry i { s.entry i with state := .queued } with hu
      have entry : u.entry i = { s.entry i with state := .queued } := State.setEntry_entry_self _ _ _
      have removed : u.PlacedBut loose off := by
        refine ((h.removeTimer placed waits).setEntry_loose (Finset.mem_insert_self _ _) _).settleRest ?_ ?_ ?_ ?_
        all_goals rw [State.setEntry_entry_self]
        · exact ⟨fits.branches, fits.watching, nofun, fits.answered⟩
        all_goals exact nofun
      refine removed.appendItem (m := x) placed ?_ ?_ rfl pending fun y hy hi => ?_
      · rw [entry]
        exact .inl rfl
      · rw [State.member, entry]
        exact member
      · have idle : ¬ (s.entry y.entry).onBranches := by
          rw [hi]
          rintro (hs | hs) <;> rw [waits] at hs <;> cases hs
        exact h.not_refers idle ⟨x.branch, .inl hy⟩
  · exact h

/-! ### SET_BRANCH -/

theorem State.PlacedBut.disable (h : s.PlacedBut loose none) (b : BranchId) : (s.disable b).PlacedBut loose none := by
  have flagged : (s.setEngine b { s.engine b with disablePending := true }).PlacedBut loose none :=
    h.setEngine_kept (by exact .refl _) (by exact rfl)
  have stopped : (s.setEngine b { s.engine b with retryTimer := none }).PlacedBut loose none :=
    h.setEngine_kept (by exact .refl _) (by exact rfl)
  simp only [State.disable]
  split
  · exact flagged
  · exact flagged
  · exact (stopped.dismiss b _).carryOutDisable b
  all_goals exact h.carryOutDisable b

theorem State.PlacedBut.reconfigure (h : s.PlacedBut loose none) (b : BranchId) (c : BranchConfig) :
    (s.reconfigure b c).PlacedBut loose none := by
  have configured : (s.setEngine b { s.engine b with config := c }).PlacedBut loose none :=
    h.setEngine_kept (by exact .refl _) (by exact rfl)
  simp only [State.reconfigure]
  split
  · exact configured.setEngine_kept (by exact .refl _) (by exact rfl)
  · exact configured.disable b

end Engines

end Sys2Proof.Machine
end

section
/-! PROOFS. The places of the work under admission, the arbiter and the resets: every step keeps them, and every invariant holds
right after reset. -/

namespace Sys2Proof.Machine

section Admission

variable {s : State} {loose : Finset EntryId} {off : Option BranchId} {i : EntryId}

/-! ### The own entry of a request -/

/-- The record of an allocated entry before the checks: in use, without member or watch record, its source CTL. -/
structure Entry.Fresh (e : Entry) : Prop where
  used : e.inUse = true
  members : e.members = []
  watch : e.watch = none
  source : e.source = .ctl

/-- Allocation makes its entry loose. -/
theorem State.PlacedBut.allocate (h : s.PlacedBut loose off) (placed : i ∉ loose) (free : (s.entry i).state = .free)
    (fr : Frame) : (s.allocate i fr).PlacedBut (insert i loose) off := by
  have idle : ¬ (s.entry i).onBranches := by
    rintro (hs | hs) <;> rw [free] at hs <;> cases hs
  have loosened : s.PlacedBut (insert i loose) off := by
    refine h.loosen ?_ (by rw [free]; decide) (by rw [free]; decide) (by rw [free]; decide) fun f hf hw => ?_
    · rintro it rfl
      exact h.not_refers idle
    · have sending := (h.sending i f hf hw).2
      rw [free] at sending
      cases sending
  rw [State.allocate_eq_enter]
  refine loosened.within ⟨fun j hj => ?_, fun _ => .refl _, fun _ _ on hi => ⟨on, hi⟩, rfl, rfl, fun src => ?_, .inl rfl⟩
  · have ne : j ≠ i := by
      rintro rfl
      exact hj (Finset.mem_insert_self j loose)
    rw [State.enter_entry, if_neg ne]
  · cases src <;> rfl

theorem State.allocate_fresh (s : State) (i : EntryId) (fr : Frame) : ((s.allocate i fr).entry i).Fresh := by
  rw [State.allocate_eq_enter, State.enter_entry_self]
  exact ⟨rfl, rfl, rfl, rfl⟩

/-- A request is answered at once. -/
theorem State.PlacedBut.answer (h : s.PlacedBut (insert i loose) off) (apart : i ∉ loose) (fresh : (s.entry i).Fresh)
    (st : Status) (r : Reply) : (s.answer i st r).PlacedBut loose off :=
  h.completeEntry apart (by simp [fresh.members]) (by simp [fresh.watch]) (by simp [fresh.source]) st r

/-- A refused request completes on its source or goes FREE. -/
theorem State.PlacedBut.refuse (h : s.PlacedBut (insert i loose) off) (apart : i ∉ loose)
    (used : (s.entry i).inUse = true) (branches : ((s.entry i).members.map (·.branch)).Nodup)
    (watching : (s.entry i).watch.isSome = true → (s.entry i).members.length ≤ 1)
    (answered : (s.entry i).source ≠ .ntc) (st : Status) : (s.refuse i st).PlacedBut loose off := by
  unfold State.refuse
  split
  · exact h.endPosted used st
  · exact h.completeEntry apart branches watching answered st _

/-! ### Data requests -/

theorem State.PlacedBut.placeDirect (h : s.PlacedBut (insert i loose) off) (apart : i ∉ loose)
    (used : (s.entry i).inUse = true) (source : (s.entry i).source = .ctl) {m : Member} (pending : m.state = .pending) :
    (s.placeDirect i m).PlacedBut loose off := by
  have inside := Finset.mem_insert_self i loose
  simp only [State.placeDirect]
  split
  · set u := s.setEntry i { s.entry i with members := [m], state := .queued, source := .branch m.branch } with hu
    have entry : u.entry i = { s.entry i with members := [m], state := .queued, source := .branch m.branch } :=
      State.setEntry_entry_self _ _ _
    have queued : u.PlacedBut loose off := by
      refine (h.setEntry_loose inside _).settleRest ?_ ?_ ?_ ?_
      all_goals rw [State.setEntry_entry_self]
      · exact ⟨by simp, fun _ => by simp, nofun, nofun⟩
      all_goals exact nofun
    refine queued.appendItem (m := m) apart (by rw [entry]; exact .inl rfl) ?_ rfl pending fun x hx hi => ?_
    · rw [State.member, entry]
      rfl
    · exact (h.queued m.branch x hx).1 (hi ▸ inside)
  · refine State.PlacedBut.refuse (h.setEntry_loose inside _) apart ?_ ?_ ?_ ?_ _
    all_goals rw [State.setEntry_entry_self]
    · exact used
    · simp
    · simp
    · rw [source]
      decide

/-- The items of a group join their queues one after the other. -/
theorem State.PlacedBut.placeMembers (apart : i ∉ loose) :
    ∀ (l : List (Member × Nat)) {s : State}, s.PlacedBut loose off → (s.entry i).onBranches →
      (∀ x ∈ l, (s.entry i).members[x.2]? = some x.1) → (l.map (·.1.branch)).Nodup →
      (∀ x ∈ l, ∀ y ∈ (s.engine x.1.branch).queue, y.entry ≠ i) →
      (l.foldl (State.placeMember i) s).PlacedBut loose off
  | [], _, h, _, _, _, _ => h
  | x :: l, s, h, works, members, once, new => by
    rw [List.map_cons, List.nodup_cons] at once
    have entry : (State.placeMember i s x).entry i = s.entry i := by
      unfold State.placeMember
      split <;> rfl
    have queue {c : BranchId} (hc : c ≠ x.1.branch) :
        ((State.placeMember i s x).engine c).queue = (s.engine c).queue := by
      unfold State.placeMember
      split
      · rw [State.appendItem, State.setEngine_engine_ne _ _ hc]
      · rfl
    have placed : (State.placeMember i s x).PlacedBut loose off := by
      unfold State.placeMember
      split
      · rename_i pending
        exact h.appendItem (m := x.1) apart works (members x List.mem_cons_self) rfl pending (new x List.mem_cons_self)
      · exact h
    refine State.PlacedBut.placeMembers apart l placed (by rwa [entry])
      (fun y hy => by rw [entry]; exact members y (List.mem_cons_of_mem _ hy)) once.2 fun y hy z hz => ?_
    rw [queue fun same => once.1 (same ▸ List.mem_map_of_mem (f := fun p : Member × Nat => p.1.branch) hy)] at hz
    exact new y (List.mem_cons_of_mem _ hy) z hz

theorem State.spawnMember_branch (s : State) (m : Member) : (s.spawnMember m).branch = m.branch := by
  unfold State.spawnMember
  split <;> rfl

theorem State.PlacedBut.placeGroup (h : s.PlacedBut (insert i loose) off) (apart : i ∉ loose)
    (watch : (s.entry i).watch = none) {targets : List Member} (branches : (targets.map (·.branch)).Nodup) :
    (s.placeGroup i targets).PlacedBut loose off := by
  have inside := Finset.mem_insert_self i loose
  have spawned : ((targets.map s.spawnMember).map (·.branch)).Nodup := by
    rw [List.map_map]
    exact (List.map_congr_left fun m _ => s.spawnMember_branch m) ▸ branches
  simp only [State.placeGroup]
  set members := targets.map s.spawnMember with hmembers
  set u := s.setEntry i { s.entry i with members := members, group := true, state := .queued, source := .ctl } with hu
  have entry : u.entry i = { s.entry i with members := members, group := true, state := .queued, source := .ctl } :=
    State.setEntry_entry_self _ _ _
  have queued : u.PlacedBut loose off := by
    refine (h.setEntry_loose inside _).settleRest ?_ ?_ ?_ ?_
    all_goals rw [State.setEntry_entry_self]
    · exact ⟨spawned, fun some => by simp [watch] at some, nofun, nofun⟩
    all_goals exact nofun
  refine (State.PlacedBut.placeMembers apart _ queued (by rw [entry]; exact .inl rfl) (fun x hx => ?_) ?_
    fun x _ y hy hi => (h.queued x.1.branch y hy).1 (hi ▸ inside)).settle apart
  · rw [entry]
    exact List.mem_zipIdx_iff_getElem?.mp hx
  · have fst : members.zipIdx.map (·.1.branch) = members.map (·.branch) := by
      rw [← Function.comp_def (fun m : Member => m.branch) Prod.fst, ← List.map_map, List.zipIdx_map_fst]
    rw [fst]
    exact spawned

/-- In a valid bank the targets of a group lie on distinct branches. -/
theorem Bank.targets_nodup {bank : Bank} (valid : bank.valid = true) {kind : Kind} {a : Half} {n : Nat} {r : Route}
    (resolves : bank.lookup kind a n = .ok r) (group : r.kind = .group) : ((r.targets a).map (·.branch)).Nodup := by
  obtain ⟨j, rfl, used, -⟩ := Bank.lookup_ok resolves
  obtain ⟨-, -, -, members, -⟩ := Bank.slot_conditions valid used
  obtain ⟨-, targets, distinct⟩ := (Route.membersValid_iff _).mp members
  have once := distinct group
  rw [Route.targets, List.map_map]
  refine List.Nodup.map_on (fun x hx y hy same => ?_) (List.Nodup.of_map _ once)
  refine List.inj_on_of_nodup_map once hx hy (BitVec.eq_of_toNat_eq ?_)
  have hx' := ((RouteMember.valid_iff x).mp (targets x hx)).2
  have hy' := ((RouteMember.valid_iff y).mp (targets y hy)).2
  have remainders : x.branch.toNat % 4 = y.branch.toNat % 4 := congrArg Fin.val same
  omega

theorem State.PlacedBut.resolve (h : s.PlacedBut (insert i loose) off) (apart : i ∉ loose) (fresh : (s.entry i).Fresh)
    (valid : s.routes.active.valid = true) {kind : Kind} (a : Half) (n : Nat) (d : List Byte) {w : Option WatchRecord}
    (watches : w.isSome = true → kind = .watch) : (s.resolve i kind a n d w).PlacedBut loose off := by
  have inside := Finset.mem_insert_self i loose
  simp only [State.resolve]
  set u := s.setEntry i { s.entry i with address := some a, length := some n, data := d } with hu
  have hu' : u.PlacedBut (insert i loose) off := h.setEntry_loose inside _
  have entryU : u.entry i = { s.entry i with address := some a, length := some n, data := d } :=
    State.setEntry_entry_self _ _ _
  split
  · refine hu'.refuse apart ?_ ?_ ?_ ?_ _ <;> rw [entryU]
    · exact fresh.used
    · simp [fresh.members]
    · simp [fresh.watch]
    · simp [fresh.source]
  · rename_i r resolves
    set v := u.setEntry i { u.entry i with watch := w } with hv
    have hv' : v.PlacedBut (insert i loose) off := hu'.setEntry_loose inside _
    have entryV : v.entry i = { s.entry i with address := some a, length := some n, data := d, watch := w } := by
      rw [hv, State.setEntry_entry_self, entryU]
    split
    · rename_i group
      have noWatch : w = none := by
        by_contra some
        obtain ⟨-, -, -, -, -, -, allowed⟩ := Bank.lookup_ok resolves
        rw [watches (Option.isSome_iff_ne_none.mpr some)] at allowed
        simp [Route.allows, group] at allowed
      refine hv'.placeGroup apart ?_ (Bank.targets_nodup valid resolves group)
      rw [entryV]
      exact noWatch
    · rename_i m more targets _
      refine hv'.placeDirect apart ?_ ?_ ?_
      · rw [entryV]
        exact fresh.used
      · rw [entryV]
        exact fresh.source
      · have first : m ∈ r.targets a := by rw [targets]; exact List.mem_cons_self
        obtain ⟨x, -, rfl⟩ := List.mem_map.mp first
        rfl
    · refine hv'.refuse apart ?_ ?_ ?_ ?_ _ <;> rw [entryV]
      · exact fresh.used
      · simp [fresh.members]
      · simp [fresh.members]
      · simp [fresh.source]

/-! ### CANCEL -/

theorem State.cancelMember_entry (j : EntryId) (s : State) (x : Member × Nat) :
    ((State.cancelMember j s x).entry j).state = (s.entry j).state ∧
      ∀ k, k ≠ x.2 → ((State.cancelMember j s x).entry j).members[k]? = (s.entry j).members[k]? := by
  have dropped (u : State) (same : u.entry j = s.entry j) :
      ((u.dropMember ⟨j, x.2⟩).entry j).state = (s.entry j).state ∧
        ∀ k, k ≠ x.2 → ((u.dropMember ⟨j, x.2⟩).entry j).members[k]? = (s.entry j).members[k]? := by
    rw [State.dropMember, State.setMember, State.setEntry_entry_self, same]
    exact ⟨rfl, fun k hk => Entry.setMember_getElem?_ne _ _ _ hk.symm⟩
  unfold State.cancelMember
  simp only
  split
  · exact ⟨rfl, fun _ _ => rfl⟩
  · exact ⟨rfl, fun _ _ => rfl⟩
  · exact dropped _ rfl
  · split
    · exact dropped _ rfl
    · rw [State.setEntry_entry_self]
      exact ⟨rfl, fun _ _ => rfl⟩

/-- What a CANCEL does to one member of its target keeps the places. -/
theorem State.PlacedBut.cancelMember {j : EntryId} (h : s.PlacedBut loose none) (placed : j ∉ loose)
    (works : (s.entry j).onBranches) {x : Member × Nat} (member : (s.entry j).members[x.2]? = some x.1) :
    (State.cancelMember j s x).PlacedBut loose none := by
  have running : (s.entry j).state ≠ .waiting := by rcases works with hs | hs <;> rw [hs] <;> decide
  have fits := h.entry j placed
  have here {c : BranchId} {m : Member} (hm : s.member ⟨j, x.2⟩ = some m) (branch : m.branch = c) : c = x.1.branch := by
    rw [State.member, member] at hm
    cases hm
    exact branch.symm
  unfold State.cancelMember
  simp only
  split
  · exact h
  · exact h
  · rename_i pending
    set u := s.setEngine x.1.branch
      { s.engine x.1.branch with queue := (s.engine x.1.branch).queue.filter (· != ⟨j, x.2⟩) } with hu
    have hu' : u.PlacedBut loose none := h.setEngine_kept (by exact List.filter_sublist) (by exact rfl)
    refine State.PlacedBut.setMember hu' (it := ⟨j, x.2⟩) placed ?_ running _ _
    rintro ⟨c, queued | ⟨-, served⟩⟩
    · rw [hu, State.setEngine_engine] at queued
      split at queued
      · simp at queued
      · rename_i hc
        obtain ⟨-, -, m, hm, branch, -⟩ := h.queued c _ queued
        exact hc (here hm branch)
    · have served' : (s.engine c).inService = some ⟨j, x.2⟩ := by
        rw [hu, State.setEngine_engine] at served
        split at served
        · rename_i hc
          rwa [hc]
        · exact served
      obtain ⟨-, -, m, hm, -, state⟩ := h.served c _ (by simp) served'
      rw [State.member, member] at hm
      cases hm
      rw [pending] at state
      cases state
  · rename_i inService
    split
    · have hu' : (s.endRetryWait x.1.branch).PlacedBut loose none :=
        h.setEngine_unserved (by exact .refl _) (by exact rfl) fun _ _ _ => by simp
      refine State.PlacedBut.setMember hu' (it := ⟨j, x.2⟩) placed ?_ running _ _
      rintro ⟨c, queued | ⟨-, served⟩⟩
      · have queued' : (⟨j, x.2⟩ : Item) ∈ (s.engine c).queue := by
          rw [State.endRetryWait, State.setEngine_engine] at queued
          split at queued
          · rename_i hc
            rwa [hc]
          · exact queued
        obtain ⟨-, -, m, hm, -, state⟩ := h.queued c _ queued'
        rw [State.member, member] at hm
        cases hm
        rw [inService] at state
        cases state
      · rw [State.endRetryWait, State.setEngine_engine] at served
        split at served
        · cases served
        · rename_i hc
          obtain ⟨-, -, m, hm, branch, -⟩ := h.served c _ (by simp) served
          exact hc (here hm branch)
    · exact h.setEntry_placed ⟨fits.branches, fits.watching, fits.waiting, fits.answered⟩ (.inl rfl) rfl
        fun y hy _ => by rw [State.member, hy]

theorem State.PlacedBut.cancelMembers {j : EntryId} (placed : j ∉ loose) :
    ∀ (l : List (Member × Nat)) {s : State}, s.PlacedBut loose none → (s.entry j).onBranches →
      (∀ x ∈ l, (s.entry j).members[x.2]? = some x.1) → (l.map (·.2)).Nodup →
      (l.foldl (State.cancelMember j) s).PlacedBut loose none
  | [], _, h, _, _, _ => h
  | x :: l, s, h, works, members, once => by
    rw [List.map_cons, List.nodup_cons] at once
    obtain ⟨state, others⟩ := State.cancelMember_entry j s x
    refine State.PlacedBut.cancelMembers placed l (h.cancelMember placed works (members x List.mem_cons_self))
      (by rwa [Entry.onBranches, state]) (fun y hy => ?_) once.2
    rw [others y.2 fun same => once.1 (same ▸ List.mem_map_of_mem hy)]
    exact members y (List.mem_cons_of_mem _ hy)

/-- The pending commit is removed, and its entry becomes loose. -/
theorem State.PlacedBut.removeCommit (h : s.PlacedBut loose off) {p : PendingCommit} (pending : s.routes.pendingCommit = some p)
    {r : RouteUnit} (removed : r.pendingCommit = none) :
    p.entry ∉ loose ∧ (s.entry p.entry).state = .held ∧ (s.setRoutes r).PlacedBut (insert p.entry loose) off := by
  obtain ⟨placed, held⟩ := (h.held p.entry).mp (by rw [pending]; rfl)
  have other {j : EntryId} {st : EntryState} (ne : st ≠ .held) :
      (j ∉ insert p.entry loose ∧ (s.entry j).state = st) ↔ (j ∉ loose ∧ (s.entry j).state = st) := by
    rw [Finset.mem_insert, not_or]
    refine ⟨fun ⟨hj, hs⟩ => ⟨hj.2, hs⟩, fun ⟨hj, hs⟩ => ⟨⟨fun same => ?_, hj⟩, hs⟩⟩
    subst same
    exact ne (hs.symm.trans held)
  have outside {j : EntryId} {st : EntryState} (ne : st ≠ .held) (hj : j ∉ loose) (hs : (s.entry j).state = st) :
      j ∉ insert p.entry loose := ((other ne).mpr ⟨hj, hs⟩).1
  refine ⟨placed, held, fun b it hi => ?_, h.queuedOnce, fun b it on hi => ?_, fun j hj => ?_, fun j => ?_, h.timerOnce,
    fun j => ?_, fun j src => ?_, h.sourceOnce, fun j f hf hw => ?_⟩
  · obtain ⟨placed, works, rest⟩ := h.queued b it hi
    refine ⟨?_, works, rest⟩
    rcases works with hs | hs
    · exact outside (by decide) placed hs
    · exact outside (by decide) placed hs
  · obtain ⟨placed, active, rest⟩ := h.served b it on hi
    exact ⟨outside (by decide) placed active, active, rest⟩
  · exact h.entry j fun inside => hj (Finset.mem_insert_of_mem inside)
  · exact (h.timer j).trans (other (by decide)).symm
  · rw [State.setRoutes_routes, removed, State.setRoutes_entry]
    refine ⟨nofun, fun ⟨hj, hs⟩ => ?_⟩
    rw [Finset.mem_insert, not_or] at hj
    have waits := (h.held j).mpr ⟨hj.2, hs⟩
    rw [pending] at waits
    exact absurd (Option.some.inj waits).symm hj.1
  · rw [← and_assoc]
    refine (h.source j src).trans ?_
    rw [← and_assoc]
    exact and_congr_left' (other (by decide)).symm
  · obtain ⟨placed, sending⟩ := h.sending j f hf hw
    exact ⟨outside (by decide) placed sending, sending⟩

/-- A quiesce wait ends and its entry completes. -/
theorem State.PlacedBut.completeHeld (h : s.PlacedBut loose off) {p : PendingCommit}
    (pending : s.routes.pendingCommit = some p) {r : RouteUnit} (removed : r.pendingCommit = none) (st : Status)
    (reply : Reply) : ((s.setRoutes r).completeEntry p.entry st reply).PlacedBut loose off := by
  obtain ⟨placed, -, loosened⟩ := h.removeCommit pending removed
  have fits := h.entry p.entry placed
  exact loosened.completeEntry placed fits.branches fits.watching fits.answered st reply

theorem State.PlacedBut.cancelTarget {j : EntryId} (h : s.PlacedBut loose none) (placed : j ∉ loose) :
    (s.cancelTarget j).1.PlacedBut loose none := by
  have fits := h.entry j placed
  have atWork (works : (s.entry j).onBranches) :
      (((s.entry j).members.zipIdx.foldl (State.cancelMember j) s).settle j).PlacedBut loose none := by
    refine (State.PlacedBut.cancelMembers placed _ h works (fun x hx => List.mem_zipIdx_iff_getElem?.mp hx) ?_).settle placed
    rw [List.zipIdx_map_snd]
    exact List.nodup_range'
  unfold State.cancelTarget
  split
  · rename_i hs
    exact atWork (.inl hs)
  · rename_i hs
    exact atWork (.inr hs)
  · rename_i waits
    obtain ⟨m, members, -⟩ := fits.waiting waits
    exact (h.removeTimer placed waits).endOnlyMember placed waits members fits.answered (.inr rfl) _
  · rename_i held
    have pending := (h.held j).mpr ⟨placed, held⟩
    obtain ⟨p, hp, rfl⟩ := Option.map_eq_some_iff.mp pending
    exact h.completeHeld hp rfl _ _
  all_goals exact h

theorem State.cancelTarget_entry_ne (s : State) {i j : EntryId} (h : i ≠ j) : (s.cancelTarget j).1.entry i = s.entry i := by
  have member (u : State) (x : Member × Nat) : (State.cancelMember j u x).entry i = u.entry i := by
    unfold State.cancelMember
    simp only
    split
    · rfl
    · rfl
    · rw [State.dropMember, State.setMember, State.setEntry_entry_ne _ _ h, State.setEngine_entry]
    · split
      · rw [State.dropMember, State.setMember, State.setEntry_entry_ne _ _ h]
        rfl
      · rw [State.setEntry_entry_ne _ _ h]
  have members (l : List (Member × Nat)) : ∀ u : State, (l.foldl (State.cancelMember j) u).entry i = u.entry i := by
    induction l with
    | nil => exact fun _ => rfl
    | cons x l ih =>
      intro u
      rw [List.foldl_cons, ih, member]
  unfold State.cancelTarget
  split
  · rw [State.settle_entry_ne _ h, members]
  · rw [State.settle_entry_ne _ h, members]
  · rw [State.settle_entry_ne _ h, State.dropMember, State.setMember, State.setEntry_entry_ne _ _ h, State.removeTimer_entry]
  · rw [State.completeEntry_entry, if_neg h, State.setRoutes_entry]
  all_goals rfl

theorem State.findTag_ne {s : State} {i j : EntryId} {tag : Byte} (h : s.findTag i tag = some j) : j ≠ i := by
  have found := List.find?_some h
  simp only [Bool.and_eq_true, bne_iff_ne] at found
  exact found.1.1

theorem State.PlacedBut.cancel (h : s.PlacedBut (insert i loose) none) (apart : i ∉ loose) (fresh : (s.entry i).Fresh)
    (tag : Byte) (others : ∀ j, s.findTag i tag = some j → j ∉ loose) : (s.cancel i tag).PlacedBut loose none := by
  unfold State.cancel
  split
  · exact h.answer apart fresh _ _
  · rename_i j found
    have ne := State.findTag_ne found
    have placed : j ∉ insert i loose := by
      rw [Finset.mem_insert, not_or]
      exact ⟨ne, others j found⟩
    refine (h.cancelTarget placed).answer apart ?_ _ _
    rwa [State.cancelTarget_entry_ne s ne.symm]

/-! ### Commits -/

theorem State.PlacedBut.setRoutes (h : s.PlacedBut loose off) {r : RouteUnit}
    (commit : r.pendingCommit = s.routes.pendingCommit) : (s.setRoutes r).PlacedBut loose off :=
  h.of_same rfl rfl rfl commit ⟨rfl, rfl⟩ (.inl rfl)

/-- A quiesce wait starts: the loose entry of the COMMIT is HELD. -/
theorem State.PlacedBut.startQuiesce (h : s.PlacedBut (insert i loose) off) (apart : i ∉ loose) (fresh : (s.entry i).Fresh)
    (calm : s.routes.pendingCommit = none) (n : Nat) : (s.startQuiesce i n).PlacedBut loose off := by
  have inside := Finset.mem_insert_self i loose
  have out {j : EntryId} (hj : j ∉ insert i loose) : j ∉ loose := fun hi => hj (Finset.mem_insert_of_mem hi)
  unfold State.startQuiesce
  set u := s.setEntry i { s.entry i with state := .held } with hu
  have hu' : u.PlacedBut (insert i loose) off := h.setEntry_loose inside _
  have entry : u.entry i = { s.entry i with state := .held } := State.setEntry_entry_self _ _ _
  have other {j : EntryId} {st : EntryState} (ne : st ≠ .held) :
      (j ∉ insert i loose ∧ (u.entry j).state = st) ↔ (j ∉ loose ∧ (u.entry j).state = st) := by
    rw [Finset.mem_insert, not_or]
    refine ⟨fun ⟨hj, hs⟩ => ⟨hj.2, hs⟩, fun ⟨hj, hs⟩ => ⟨⟨fun same => ?_, hj⟩, hs⟩⟩
    subst same
    rw [entry] at hs
    exact ne hs.symm
  refine ⟨fun b it hi => ?_, hu'.queuedOnce, fun b it on hi => ?_, fun j hj => ?_, fun j => ?_, hu'.timerOnce,
    fun j => ?_, fun j src => ?_, hu'.sourceOnce, fun j f hf hw => ?_⟩
  · obtain ⟨placed, rest⟩ := hu'.queued b it hi
    exact ⟨out placed, rest⟩
  · obtain ⟨placed, rest⟩ := hu'.served b it on hi
    exact ⟨out placed, rest⟩
  · rw [State.setRoutes_entry]
    by_cases same : j = i
    · rw [same, entry]
      exact ⟨by simp [fresh.members], by simp [fresh.watch], nofun, by simp [fresh.source]⟩
    · exact hu'.entry j (by simp [same, hj])
  · exact (hu'.timer j).trans (other (by decide))
  · rw [State.setRoutes_routes, State.setRoutes_entry]
    simp only [Option.map_some, Option.some.injEq]
    constructor
    · rintro rfl
      rw [entry]
      exact ⟨apart, rfl⟩
    · rintro ⟨hj, hs⟩
      by_contra ne
      have waits := (hu'.held j).mpr ⟨by simp [Ne.symm ne, hj], hs⟩
      rw [hu, State.setEntry_routes, calm] at waits
      cases waits
  · refine (hu'.source j src).trans ?_
    rw [← and_assoc, ← and_assoc, other (by decide)]
    rfl
  · obtain ⟨placed, rest⟩ := hu'.sending j f hf hw
    exact ⟨out placed, rest⟩

theorem State.PlacedBut.commit (h : s.PlacedBut (insert i loose) off) (apart : i ∉ loose) (fresh : (s.entry i).Fresh)
    (g : Half) (m : CommitMode) (t : Half) : (s.commit i g m t).PlacedBut loose off := by
  have performed : (s.commitNow i).PlacedBut loose off :=
    State.PlacedBut.answer (s := s.setRoutes s.routes.perform) (h.setRoutes rfl) apart fresh _ _
  simp only [State.commit]
  split
  · exact h.answer apart fresh _ _
  · rename_i calm
    split
    · exact h.answer apart fresh _ _
    · split
      · exact h.answer apart fresh _ _
      · split
        · exact performed
        · split
          · exact performed
          · exact h.startQuiesce apart fresh (by simpa using calm) _

/-! ### SET_BRANCH -/

/-- A flush touches the entries of its items and of its watches alone. -/
theorem State.flushBranch_entry_ne (s : State) (b : BranchId) (o : Status) {j : EntryId}
    (items : ∀ it ∈ (s.engine b).queue, it.entry ≠ j) (watches : ∀ x ∈ s.timers, s.timerOn b x = true → x.entry ≠ j) :
    (s.flushBranch b o).entry j = s.entry j := by
  simp only [State.flushBranch]
  have ended (l : List WatchTimer) : ∀ u : State, (∀ x ∈ l, x.entry ≠ j) →
      (l.foldl (fun s t => s.finishMember { entry := t.entry, member := 0 } o) u).entry j = u.entry j := by
    induction l with
    | nil => exact fun _ _ => rfl
    | cons x l ih =>
      intro u hl
      rw [List.foldl_cons, ih _ fun y hy => hl y (List.mem_cons_of_mem _ hy),
        State.finishMember_entry_ne u o (hl x List.mem_cons_self).symm]
  rw [ended _ _ fun x hx => watches x (List.mem_filter.mp hx).1 (List.mem_filter.mp hx).2,
    State.foldl_finishMember_entry_ne o _ _ items]
  rfl

theorem State.PlacedBut.flushBranch_entry (h : s.PlacedBut loose off) (hi : i ∈ loose) (b : BranchId) (o : Status) :
    (s.flushBranch b o).entry i = s.entry i := by
  refine s.flushBranch_entry_ne b o (fun it hit same => ?_) fun x hx _ same => ?_
  · exact (h.queued b it hit).1 (same ▸ hi)
  · exact ((h.timer x.entry).mp (List.mem_map_of_mem hx)).1 (same ▸ hi)

theorem State.PlacedBut.dismiss_entry (h : s.PlacedBut loose none) (hi : i ∈ loose) (b : BranchId) (o : Status) :
    (s.dismiss b o).entry i = s.entry i := by
  unfold State.dismiss
  split
  · rfl
  · rename_i it inService
    rw [State.finishMember_entry_ne _ o fun same => (h.served b it (by simp) inService).1 (same ▸ hi), State.setEngine_entry]

/-- A SET_BRANCH leaves the loose entries alone. -/
theorem State.PlacedBut.reconfigure_entry (h : s.PlacedBut loose none) (hi : i ∈ loose) (b : BranchId) (c : BranchConfig) :
    (s.reconfigure b c).entry i = s.entry i := by
  have configured : (s.setEngine b { s.engine b with config := c }).PlacedBut loose none :=
    h.setEngine_kept (by exact .refl _) (by exact rfl)
  have disabled {u : State} (hu : u.PlacedBut loose none) : (u.disable b).entry i = u.entry i := by
    have stopped : (u.setEngine b { u.engine b with retryTimer := none }).PlacedBut loose none :=
      hu.setEngine_kept (by exact .refl _) (by exact rfl)
    simp only [State.disable]
    split
    · rfl
    · rfl
    · rw [State.carryOutDisable, State.setEngine_entry, (stopped.dismiss b _).flushBranch_entry hi, stopped.dismiss_entry hi,
        State.setEngine_entry]
    all_goals exact hu.flushBranch_entry hi b _
  simp only [State.reconfigure]
  split
  · rfl
  · rw [disabled configured, State.setEngine_entry]

/-! ### Every request -/

theorem State.PlacedBut.execute (h : s.PlacedBut {i} none) (fresh : (s.entry i).Fresh)
    (valid : s.routes.active.valid = true) (r : Request) : (s.execute i r).PlacedBut ∅ none := by
  have apart : i ∉ (∅ : Finset EntryId) := Finset.notMem_empty i
  cases r with
  | read a n => exact State.PlacedBut.resolve h apart fresh valid a n [] nofun
  | write p a d => exact State.PlacedBut.resolve h apart fresh valid a _ d nofun
  | watch a iv li mask pat => exact State.PlacedBut.resolve h apart fresh valid a _ [] fun _ => rfl
  | cancel tag => exact State.PlacedBut.cancel h apart fresh tag fun _ _ => Finset.notMem_empty _
  | identify => exact State.PlacedBut.answer h apart fresh _ _
  | getStatus => exact State.PlacedBut.answer h apart fresh _ _
  | stageRoute slot r =>
    simp only [State.execute, State.stage]
    split
    · exact State.PlacedBut.answer h apart fresh _ _
    · exact State.PlacedBut.answer (s := s.setRoutes { s.routes with staging := Table.set s.routes.staging slot r })
        (State.PlacedBut.setRoutes h (by exact rfl)) apart fresh _ _
  | readRoute bank slot => exact State.PlacedBut.answer h apart fresh _ _
  | commit g m t => exact State.PlacedBut.commit h apart fresh g m t
  | discard =>
    simp only [State.execute, State.discardStaging]
    split
    · exact State.PlacedBut.answer h apart fresh _ _
    · exact State.PlacedBut.answer (s := s.setRoutes { s.routes with staging := s.routes.active })
        (State.PlacedBut.setRoutes h (by exact rfl)) apart fresh _ _
  | setBranch b c =>
    have kept : ((s.reconfigure b c).entry i).Fresh := by
      rwa [h.reconfigure_entry (Finset.mem_singleton_self i) b c]
    exact State.PlacedBut.answer (s := s.reconfigure b c) (h.reconfigure b c) apart kept _ _
  | getBranch b => exact State.PlacedBut.answer h apart fresh _ _
  | setArbiter c =>
    refine State.PlacedBut.answer (s := s.setArbiter { s.arbiter with config := c }) ?_ apart fresh _ _
    exact h.of_same rfl rfl rfl rfl ⟨rfl, rfl⟩ (.inl rfl)
  | reset scope =>
    have halted : ({ s with halt := true } : State).PlacedBut {i} none := h.of_same rfl rfl rfl rfl ⟨rfl, rfl⟩ (.inl rfl)
    refine State.PlacedBut.answer
      (s := ({ s with halt := true } : State).setEntry i { s.entry i with scope := some scope })
      (halted.setEntry_loose (Finset.mem_singleton_self i) _) apart ?_ _ _
    rw [State.setEntry_entry_self]
    exact ⟨fresh.used, fresh.members, fresh.watch, fresh.source⟩

theorem State.lowestFree_state {s : State} {i : EntryId} (h : s.lowestFree = some i) : (s.entry i).state = .free := by
  simpa [Entry.inUse] using State.lowestFree_inUse h

theorem State.PlacedBut.runChecks (h : s.PlacedBut ∅ none) (valid : s.routes.active.valid = true) (fr : Frame) :
    (s.runChecks fr).PlacedBut ∅ none := by
  have checked := s.runChecks_checked fr
  generalize s.runChecks fr = t at checked
  cases checked with
  | duplicate => exact h.hand _
  | full => exact h
  | @malformed i _ free =>
    have fresh := s.allocate_fresh i fr
    exact (h.allocate (Finset.notMem_empty i) (State.lowestFree_state free) fr).refuse (Finset.notMem_empty i) fresh.used
      (by simp [fresh.members]) (by simp [fresh.watch]) (by simp [fresh.source]) _
  | @executed i r _ free =>
    exact State.PlacedBut.execute (h.allocate (Finset.notMem_empty i) (State.lowestFree_state free) fr)
      (s.allocate_fresh i fr) valid r

theorem State.PlacedBut.take (h : s.PlacedBut ∅ none) (valid : s.routes.active.valid = true) (names : Frame → Bool) :
    (s.take names).PlacedBut ∅ none := by
  rcases s.take_cases names with same | ⟨fr, rest, -, -, -, taken⟩
  · rwa [same]
  · rw [taken]
    refine s.takeHead_keeps (P := fun t => t.PlacedBut ∅ none) fr rest ?_ fun u hu => hu.hand _
    rintro u ⟨n, q, rfl⟩
    exact State.PlacedBut.runChecks (s := { s.headGone fr rest with freeCount := n, notices := q })
      (h.of_same rfl rfl rfl rfl ⟨rfl, rfl⟩ (.inl rfl)) valid fr

theorem State.PlacedBut.drain (h : s.PlacedBut loose off) : s.drain.PlacedBut loose off := by
  simp only [State.drain]
  split
  · split
    · exact h
    · rename_i p pending
      obtain ⟨-, held, -⟩ := h.removeCommit pending (r := { s.routes with pendingCommit := none }) rfl
      rw [State.setRoutes_entry, if_pos held]
      exact h.completeHeld pending rfl _ _
  · exact h

theorem State.PlacedBut.expireQuiesce (h : s.PlacedBut loose off) : s.expireQuiesce.PlacedBut loose off := by
  simp only [State.expireQuiesce]
  split
  · exact h
  · split
    · exact h
    · rename_i p pending
      obtain ⟨-, held, -⟩ := h.removeCommit pending (r := { s.routes with pendingCommit := none }) rfl
      rw [State.setRoutes_entry, if_pos held]
      exact h.completeHeld pending rfl _ _

/-! ### The arbiter and the transmitter -/

/-- The head of a source leaves its queue and becomes loose. -/
theorem State.PlacedBut.popSource (h : s.PlacedBut loose off) {src : Source} {rest : List EntryId} {a : Arbiter}
    (queue : s.sourceQueue src = i :: rest)
    (popped : ∀ x, (s.setArbiter a).sourceQueue x = if x = src then rest else s.sourceQueue x) :
    i ∉ loose ∧ (s.entry i).state = .complete ∧ (s.setArbiter a).PlacedBut (insert i loose) off := by
  obtain ⟨placed, complete, source⟩ := (h.source i src).mp (by rw [queue]; exact List.mem_cons_self)
  have once := h.sourceOnce src
  rw [queue, List.nodup_cons] at once
  have other {j : EntryId} {st : EntryState} (ne : st ≠ .complete) :
      (j ∉ insert i loose ∧ (s.entry j).state = st) ↔ (j ∉ loose ∧ (s.entry j).state = st) := by
    rw [Finset.mem_insert, not_or]
    refine ⟨fun ⟨hj, hs⟩ => ⟨hj.2, hs⟩, fun ⟨hj, hs⟩ => ⟨⟨fun same => ?_, hj⟩, hs⟩⟩
    subst same
    exact ne (hs.symm.trans complete)
  have outside {j : EntryId} {st : EntryState} (ne : st ≠ .complete) (hj : j ∉ loose) (hs : (s.entry j).state = st) :
      j ∉ insert i loose := ((other ne).mpr ⟨hj, hs⟩).1
  refine ⟨placed, complete, fun b it hi => ?_, h.queuedOnce, fun b it on hi => ?_, fun j hj => ?_, fun j => ?_, h.timerOnce,
    fun j => ?_, fun j x => ?_, fun x => ?_, fun j f hf hw => ?_⟩
  · obtain ⟨placed, works, rest⟩ := h.queued b it hi
    refine ⟨?_, works, rest⟩
    rcases works with hs | hs
    · exact outside (by decide) placed hs
    · exact outside (by decide) placed hs
  · obtain ⟨placed, active, rest⟩ := h.served b it on hi
    exact ⟨outside (by decide) placed active, active, rest⟩
  · exact h.entry j fun inside => hj (Finset.mem_insert_of_mem inside)
  · exact (h.timer j).trans (other (by decide)).symm
  · exact (h.held j).trans (other (by decide)).symm
  · rw [popped, State.setArbiter_entry, Finset.mem_insert, not_or]
    by_cases same : j = i
    · subst same
      have absent : j ∉ (if x = src then rest else s.sourceQueue x) := by
        split
        · exact once.1
        · rename_i hx
          exact fun hj => hx (((h.source j x).mp hj).2.2.symm.trans source)
      simp [absent]
    · have member : j ∈ (if x = src then rest else s.sourceQueue x) ↔ j ∈ s.sourceQueue x := by
        split
        · rename_i hx
          rw [hx, queue, List.mem_cons]
          simp [same]
        · rfl
      rw [member, h.source]
      simp [same]
  · rw [popped]
    split
    · exact once.2
    · exact h.sourceOnce x
  · obtain ⟨placed, sending⟩ := h.sending j f hf hw
    exact ⟨outside (by decide) placed sending, sending⟩

/-- A frame stands on TTXD. -/
theorem State.PlacedBut.transmit (h : s.PlacedBut loose off) {x : Sending}
    (sending : ∀ i, x.what = .response i → i ∉ loose ∧ (s.entry i).state = .sending) :
    ({ s with tx := some x } : State).PlacedBut loose off :=
  { h with
    source := fun i src => (by cases src <;> rfl : ({ s with tx := some x } : State).sourceQueue src = s.sourceQueue src) ▸
      h.source i src
    sourceOnce := fun src => (by cases src <;> rfl : ({ s with tx := some x } : State).sourceQueue src = s.sourceQueue src) ▸
      h.sourceOnce src
    sending := fun i f hf hw => by
      cases hf
      exact sending i hw }

theorem State.PlacedBut.beginResponse (h : s.PlacedBut (insert i loose) off) (apart : i ∉ loose)
    (complete : (s.entry i).state = .complete) (fits : (s.entry i).WellPlaced) : (s.beginResponse i).PlacedBut loose off := by
  simp only [State.beginResponse, complete, if_true]
  have begun : (s.setEntry i { s.entry i with state := .sending }).PlacedBut loose off := by
    refine (h.setEntry_loose (Finset.mem_insert_self i loose) _).settleRest ?_ ?_ ?_ ?_
    all_goals rw [State.setEntry_entry_self]
    · exact ⟨fits.branches, fits.watching, nofun, fits.answered⟩
    all_goals exact nofun
  refine State.PlacedBut.transmit
    (s := { s.setEntry i { s.entry i with state := .sending } with rx := { s.rx with advertised := s.rx.freeSlots } })
    (begun.of_same rfl rfl rfl rfl ⟨rfl, rfl⟩ (.inl rfl)) fun j hj => ?_
  cases hj
  refine ⟨apart, ?_⟩
  exact congrArg Entry.state (State.setEntry_entry_self s i { s.entry i with state := .sending })

theorem State.PlacedBut.beginFrame (h : s.PlacedBut loose off) (src : Source) : (s.beginFrame src).PlacedBut loose off := by
  cases src with
  | branch b =>
    simp only [State.beginFrame]
    split
    · exact h
    · rename_i i rest queue
      obtain ⟨placed, complete, popped⟩ := h.popSource (src := .branch b) (i := i) (rest := rest)
        (a := { s.arbiter with branchQueues := Table.set s.arbiter.branchQueues b rest }) queue fun x => by
          cases x with
          | branch c =>
            by_cases hc : c = b
            · subst hc
              simp [State.sourceQueue]
            · simp [State.sourceQueue, hc, Table.get_set_ne _ _ hc]
          | ctl => simp [State.sourceQueue]
          | ntc => simp [State.sourceQueue]
      exact popped.beginResponse placed complete (h.entry i placed)
  | ctl =>
    simp only [State.beginFrame]
    split
    · exact h
    · rename_i i rest queue
      obtain ⟨placed, complete, popped⟩ := h.popSource (src := .ctl) (i := i) (rest := rest)
        (a := { s.arbiter with ctlQueue := rest }) queue fun x => by cases x <;> simp [State.sourceQueue]
      exact popped.beginResponse placed complete (h.entry i placed)
  | ntc =>
    simp only [State.beginFrame]
    split
    · exact h
    · rename_i x rest queue
      exact State.PlacedBut.transmit
        (s := { s with
          notices := { queue := rest, lost := false, sequence := s.notices.sequence + 1#8 }
          rx := { s.rx with advertised := s.rx.freeSlots } })
        (h.of_same rfl rfl rfl rfl ⟨rfl, rfl⟩ (.inl rfl)) nofun

theorem Arbiter.sync_queues (a : Arbiter) : a.sync.branchQueues = a.branchQueues ∧ a.sync.ctlQueue = a.ctlQueue := by
  unfold Arbiter.sync
  split <;> exact ⟨rfl, rfl⟩

theorem State.PlacedBut.arbitrate (h : s.PlacedBut loose off) {ready : Source → Bool}
    (hready : ∀ x, ready x = true → s.sourceReady x = true) : (s.arbitrate ready).PlacedBut loose off := by
  have granted (a : Arbiter) (queues : a.branchQueues = s.arbiter.branchQueues ∧ a.ctlQueue = s.arbiter.ctlQueue) :
      (s.setArbiter a).PlacedBut loose off := h.of_same rfl rfl rfl rfl queues (.inl rfl)
  refine State.arbitrate_keeps (P := fun t => t.PlacedBut loose off) hready ?_ fun src n l _ => ?_
  · rintro a rfl
    exact granted _ s.arbiter.sync_queues
  · exact State.PlacedBut.beginFrame (s := s.setArbiter _) (granted _ (by exact s.arbiter.sync_queues)) src

/-! ### Resets -/

/-- Nothing stands anywhere. -/
theorem State.placedBut_of_empty (entries : ∀ i, s.entry i = Entry.free)
    (engines : ∀ b, (s.engine b).queue = [] ∧ (s.engine b).inService = none) (timers : s.timers = [])
    (commit : s.routes.pendingCommit = none) (sources : ∀ src, s.sourceQueue src = []) (tx : s.tx = none) :
    s.PlacedBut ∅ none := by
  refine ⟨fun b it hi => ?_, fun b => ?_, fun b it _ hi => ?_, fun i _ => ?_, fun i => ?_, ?_, fun i => ?_, fun i src => ?_,
    fun src => ?_, fun i f hf => ?_⟩
  · simp [(engines b).1] at hi
  · simp [(engines b).1]
  · simp [(engines b).2] at hi
  · rw [entries]
    exact Entry.free_wellPlaced
  · simp [timers, entries, Entry.free]
  · simp [timers]
  · simp [commit, entries, Entry.free]
  · simp [sources, entries, Entry.free]
  · simp [sources]
  · simp [tx] at hf

theorem OutstandingTable.reset_entry {s : State} (h : s.table = OutstandingTable.reset) (i : EntryId) :
    s.entry i = Entry.free := by
  simp [State.entry, h, OutstandingTable.reset]

theorem Engine.afterSoft_work (g : Engine) : g.afterSoft.queue = [] ∧ g.afterSoft.inService = none := by
  unfold Engine.afterSoft
  simp only
  repeat' split
  all_goals exact ⟨rfl, rfl⟩

theorem State.takeEffect_placedBut (s : State) (scope : ResetScope) (straps : RateCode) :
    (s.takeEffect scope straps).PlacedBut ∅ none := by
  cases scope with
  | soft =>
    refine State.placedBut_of_empty (OutstandingTable.reset_entry rfl) (fun b => ?_) rfl rfl (fun src => ?_) rfl
    · have here : (s.takeEffect .soft straps).engine b = (s.engine b).afterSoft := Table.get_map _ _ b
      rw [here]
      exact Engine.afterSoft_work _
    · cases src <;> simp [State.takeEffect, State.resetSoft, State.sourceQueue, Arbiter.afterSoft, Arbiter.reset]
  | full =>
    refine State.placedBut_of_empty (OutstandingTable.reset_entry rfl) (fun b => ?_) rfl rfl (fun src => ?_) rfl
    · have here : (s.takeEffect .full straps).engine b = (s.engine b).afterFull := Table.get_map _ _ b
      rw [here]
      exact ⟨rfl, rfl⟩
    · cases src <;> simp [State.takeEffect, State.resetFull, State.sourceQueue, Arbiter.reset]

theorem State.startUp_placedBut (s : State) (straps : RateCode) (cause : ResetCause) :
    (s.startUp straps cause).PlacedBut ∅ none := by
  refine State.placedBut_of_empty (OutstandingTable.reset_entry rfl) (fun b => ?_) rfl rfl (fun src => ?_) rfl
  · have here : (s.startUp straps cause).engine b = Engine.reset := Table.get_replicate _ b
    rw [here]
    exact ⟨rfl, rfl⟩
  · cases src <;> simp [State.startUp, State.sourceQueue, Arbiter.reset]

/-- The entry whose response has left TTXD goes FREE. -/
theorem State.PlacedBut.releaseEntry (h : s.PlacedBut loose off) {f : Sending} (onLine : s.tx = some f)
    (response : f.what = .response i) : (({ s with tx := none } : State).freeEntry i).PlacedBut loose off := by
  obtain ⟨placed, sending⟩ := h.sending i f onLine response
  have cleared : ({ s with tx := none } : State).PlacedBut loose off := h.of_same rfl rfl rfl rfl ⟨rfl, rfl⟩ (.inr rfl)
  have idle : ¬ (s.entry i).onBranches := by
    rintro (hs | hs) <;> rw [sending] at hs <;> cases hs
  refine (cleared.loosen ?_ ?_ ?_ ?_ fun _ hf => by cases hf).freeEntry ?_
  · rintro it rfl
    exact cleared.not_refers idle
  · exact fun hs => absurd (sending.symm.trans hs) (by decide)
  · exact fun hs => absurd (sending.symm.trans hs) (by decide)
  · exact fun hs => absurd (sending.symm.trans hs) (by decide)
  · exact (congrArg (· != EntryState.free) sending).trans rfl

theorem State.Event.placedBut {t : State} {c : Instr} (h : s.PlacedBut ∅ none) (routes : s.routes.Sound)
    (e : s.Event c t) : t.PlacedBut ∅ none := by
  cases e with
  | link e =>
    rw [e.onlyLink.same]
    exact h.of_same rfl rfl rfl rfl ⟨rfl, rfl⟩ (.inl rfl)
  | engine b e => exact e.placedBut h
  | expireWatch i => exact h.expireWatch (Finset.notMem_empty i)
  | take names _ => exact h.take routes.1 names
  | drain => exact h.drain
  | expireQuiesce => exact h.expireQuiesce
  | endFrame straps =>
    rcases s.endFrame_cases straps with same | ⟨frame, u, -, onLine, released, ends⟩
    · rwa [same]
    · rw [ends]
      refine State.PlacedBut.arbitrate ?_ fun _ => id
      cases hw : frame.what with
      | notice =>
        rw [hw] at released
        cases released
        exact h.of_same rfl rfl rfl rfl ⟨rfl, rfl⟩ (.inr rfl)
      | response i =>
        rw [hw] at released
        cases released with
        | reset _ => exact State.takeEffect_placedBut _ _ _
        | response _ =>
          have kept := State.beforeDecision_keeps (P := fun u => u.routes.Sound ∧ u.PlacedBut ∅ none)
            (s := ({ s with tx := none } : State).freeEntry i)
            ⟨by rwa [State.freeEntry_routes], h.releaseEntry onLine hw⟩
            (fun _ hu => ⟨hu.1, hu.2.of_same rfl rfl rfl rfl ⟨rfl, rfl⟩ (.inl rfl)⟩)
            (fun _ hu => ⟨State.drain_routesSound hu.1, hu.2.drain⟩)
            (fun u names hu => ⟨(u.take_edit names).sound hu.1, hu.2.take hu.1.1 names⟩)
          exact kept.2
  | grantIdle =>
    rcases s.grantIdle_cases with same | ⟨n, ready, -, hready, granted⟩
    · rwa [same]
    · rw [granted]
      exact State.PlacedBut.arbitrate (s := { s with freeCount := n }) (h.of_same rfl rfl rfl rfl ⟨rfl, rfl⟩ (.inl rfl))
        hready
  | supply e =>
    rcases e.cases with rfl | ⟨sup, rfl, -⟩ | ⟨sup, rfl, -⟩ | ⟨straps, cause, rfl⟩
    · exact h
    · have engine (b : BranchId) : ({ s with supply := sup } : State).stop.engine b = { s.engine b with wire := .released } :=
        Table.get_map _ _ b
      refine h.within ⟨fun _ _ => rfl, fun b => ?_, fun b it on hi => ⟨on, ?_⟩, rfl, rfl, fun src => ?_, .inr rfl⟩
      · rw [engine]
      · rwa [engine] at hi
      · cases src <;> rfl
    · exact h.of_same rfl rfl rfl rfl ⟨rfl, rfl⟩ (.inl rfl)
    · exact s.startUp_placedBut straps cause

end Admission

theorem State.PlacedBut.elapse {s : State} {loose : Finset EntryId} {off : Option BranchId} (h : s.PlacedBut loose off) :
    s.elapse.PlacedBut loose off := by
  have engine (b : BranchId) : s.elapse.engine b = (s.engine b).elapse := Table.get_map _ _ b
  refine h.within ⟨fun _ _ => rfl, fun b => ?_, fun b it on hi => ⟨on, ?_⟩, ?_, ?_, fun src => ?_, .inl rfl⟩
  · rw [engine]
    exact .refl _
  · rw [engine] at hi
    exact hi
  · simp [State.elapse, Function.comp_def]
  · simp [State.elapse, Function.comp_def]
  · cases src <;> rfl

/-- Settles O60: with the soundness of the route table, which a lookup needs, every event keeps the places. -/
theorem stepKeepsTheWorkPlaced : Obligations.StepKeepsTheWorkPlaced := fun s t routes placed h => by
  have kept : t.routes.Sound ∧ t.PlacedBut ∅ none :=
    step_keeps (P := fun s => s.routes.Sound ∧ s.PlacedBut ∅ none)
      (fun _ _ h => ⟨h.1, h.2.of_same rfl rfl rfl rfl ⟨rfl, rfl⟩ (.inl rfl)⟩)
      (fun s h => by
        rcases s.tick_cases with same | ⟨-, elapsed⟩
        · rwa [same]
        · rw [elapsed]
          exact ⟨⟨h.1.1, fun some => h.1.2 (by simpa [State.elapse] using some)⟩, h.2.elapse⟩)
      (fun _ _ _ h e => ⟨e.routesSound h.1, e.placedBut h.2 h.1⟩) ⟨routes, s.placed_iff.mp placed⟩ h
  exact t.placed_iff.mpr kept.2

end Sys2Proof.Machine
end

section
/-! PROOFS. The arbiter: what a decision does, by the mode and the sources it sees ready, on an idle TTXD and at the end of a
frame; the beginning of a frame; its bits on TTXD. -/

namespace Sys2Proof.Machine

/-! ### The priority order -/

theorem Source.mem_all (src : Source) : src ∈ Source.all := by
  cases src with
  | branch b => fin_cases b <;> decide
  | ctl => decide
  | ntc => decide

theorem ArbiterConfig.order_perm {c : ArbiterConfig} (h : c.legal = true) : Source.all.Perm c.order := by
  obtain ⟨-, legal⟩ := c.legal_iff.mp h
  simp only [isPriorityOrder, Bool.and_eq_true, beq_iff_eq, List.all_eq_true, List.contains_iff_mem] at legal
  obtain ⟨length, all⟩ := legal
  exact (List.subperm_of_subset (by decide) all).perm_of_length_le (by rw [length]; decide)

theorem ArbiterConfig.mem_order {c : ArbiterConfig} (h : c.legal = true) (src : Source) : src ∈ c.order :=
  (ArbiterConfig.order_perm h).subset src.mem_all

theorem ArbiterConfig.order_nodup {c : ArbiterConfig} (h : c.legal = true) : c.order.Nodup :=
  (ArbiterConfig.order_perm h).nodup_iff.mp (by decide)

/-! ### The parts of a decision -/

section Decision

variable {a : Arbiter} {ready : Source → Bool} {src : Source} {pre post : List Source}

theorem Arbiter.sync_eq (a : Arbiter) :
    a.sync = { a with
      decisionMode := a.config.mode
      roundSet := if a.decisionMode = a.config.mode then a.roundSet else []
      grant := if a.decisionMode = a.config.mode then a.grant else none } := by
  unfold Arbiter.sync
  split
  · rename_i same
    simp [same]
  · rename_i changed
    simp [Ne.symm changed]

theorem find?_eq_some_of_first {p : Source → Bool} (hp : p src = true) (before : ∀ x ∈ pre, p x = false) :
    (pre ++ src :: post).find? p = some src :=
  List.find?_eq_some_iff_append.mpr ⟨hp, pre, post, rfl, fun x hx => by rw [before x hx]; rfl⟩

theorem find?_eq_none_of_not_ready {p : Source → Bool} (l : List Source) (h : ∀ x, p x = false) : l.find? p = none :=
  List.find?_eq_none.mpr fun x _ => by rw [h x]; decide

/-- LINEAR grants the earliest ready source (R140). -/
theorem Arbiter.choose_linear (mode : a.config.mode = .linear) (order : a.config.order = pre ++ src :: post)
    (is : ready src = true) (before : ∀ x ∈ pre, ready x = false) : a.choose ready = some (src, a.roundSet) := by
  rw [Arbiter.choose, mode]
  simp only
  rw [order, find?_eq_some_of_first is before]
  rfl

/-- ROUND grants the earliest ready source outside the round set (R141). -/
theorem Arbiter.choose_round (mode : a.config.mode = .round) (order : a.config.order = pre ++ src :: post)
    (is : ready src = true) (fresh : src ∉ a.roundSet) (before : ∀ x ∈ pre, ready x = true → x ∈ a.roundSet) :
    a.choose ready = some (src, a.roundSet ++ [src]) := by
  have found : a.config.order.find? (fun x => ready x && !a.roundSet.contains x) = some src := by
    rw [order]
    refine find?_eq_some_of_first (by simp [is, fresh]) fun x hx => ?_
    cases hr : ready x
    · rfl
    · simp [before x hx hr]
  rw [Arbiter.choose, mode]
  simp only
  rw [found]

/-- ROUND begins a new round when every ready source is in the round set (R141). -/
theorem Arbiter.choose_newRound (mode : a.config.mode = .round) (order : a.config.order = pre ++ src :: post)
    (is : ready src = true) (all : ∀ x, ready x = true → x ∈ a.roundSet) (before : ∀ x ∈ pre, ready x = false) :
    a.choose ready = some (src, [src]) := by
  have none_fresh : a.config.order.find? (fun x => ready x && !a.roundSet.contains x) = none := by
    refine find?_eq_none_of_not_ready _ fun x => ?_
    cases hr : ready x
    · rfl
    · simp [all x hr]
  rw [Arbiter.choose, mode]
  simp only
  rw [none_fresh]
  simp only
  rw [order, find?_eq_some_of_first is before]
  rfl

theorem Arbiter.choose_of_idle (h : ∀ x, ready x = false) : a.choose ready = none := by
  cases mode : a.config.mode
  · rw [Arbiter.choose, mode]
    simp only
    rw [find?_eq_none_of_not_ready _ h]
    rfl
  · rw [Arbiter.choose, mode]
    simp only
    rw [find?_eq_none_of_not_ready (p := fun x => ready x && !a.roundSet.contains x) _ fun x => by rw [h x]; rfl]
    simp only
    rw [find?_eq_none_of_not_ready _ h]
    rfl

/-- The round set after the grant of the only source a decision sees ready. -/
def Arbiter.roundAfter (a : Arbiter) (src : Source) : List Source :=
  if a.config.mode = .linear then a.roundSet else if src ∈ a.roundSet then [src] else a.roundSet ++ [src]

theorem Arbiter.choose_lone (mem : src ∈ a.config.order) :
    a.choose (· == src) = some (src, a.roundAfter src) := by
  obtain ⟨pre, post, order, fresh⟩ := List.eq_append_cons_of_mem mem
  have before : ∀ x ∈ pre, (x == src) = false := fun x hx => beq_eq_false_iff_ne.mpr fun same => fresh (same ▸ hx)
  cases mode : a.config.mode
  · rw [Arbiter.choose_linear mode order (by simp) before]
    simp [Arbiter.roundAfter, mode]
  · by_cases inside : src ∈ a.roundSet
    · rw [Arbiter.choose_newRound mode order (by simp) (fun x hx => by rwa [beq_iff_eq.mp hx]) before]
      simp [Arbiter.roundAfter, mode, inside]
    · rw [Arbiter.choose_round mode order (by simp) inside fun x hx is => absurd is (by simp [before x hx])]
      simp [Arbiter.roundAfter, mode, inside]

theorem Arbiter.yields_eq_false_iff (legal : a.config.legal = true) :
    a.yields ready src = false ↔
      (a.config.yieldPolicy = .atBurst ∨
        (a.config.mode = .linear ∧ ∃ pre post, a.config.order = pre ++ src :: post ∧ ∀ x ∈ pre, ready x = false) ∨
        (¬ a.config.mode = .linear ∧ ∀ x, x ≠ src → ready x = true → x ∈ a.roundSet)) := by
  have inOrder := ArbiterConfig.mem_order legal
  cases yieldPolicy : a.config.yieldPolicy
  · cases mode : a.config.mode
    · obtain ⟨pre, post, order, fresh⟩ := List.eq_append_cons_of_mem (inOrder src)
      have taken : a.config.order.takeWhile (· != src) = pre := by
        rw [order, List.takeWhile_append_of_pos fun x hx => bne_iff_ne.mpr fun (same : x = src) => fresh (same ▸ hx)]
        simp
      simp only [Arbiter.yields, yieldPolicy, mode, taken, List.any_eq_false, reduceCtorEq, true_and, false_or, not_true_eq_false,
        false_and, or_false, Bool.not_eq_true]
      constructor
      · exact fun before => ⟨pre, post, order, before⟩
      · rintro ⟨pre', post', order', before⟩ x hx
        have nodup := ArbiterConfig.order_nodup legal
        have same : pre = pre' := by
          have taken' : a.config.order.takeWhile (· != src) = pre' := by
            rw [order'] at nodup
            have fresh' : src ∉ pre' := fun h => (List.nodup_append.mp nodup).2.2 src h src List.mem_cons_self rfl
            rw [order', List.takeWhile_append_of_pos fun x hx => bne_iff_ne.mpr fun (same : x = src) => fresh' (same ▸ hx)]
            simp
          exact taken.symm.trans taken'
        exact before x (same ▸ hx)
    · simp only [Arbiter.yields, yieldPolicy, mode, List.any_eq_false, reduceCtorEq, false_and, false_or,
        not_false_eq_true, true_and, Bool.and_eq_true, bne_iff_ne, ne_eq, Bool.not_eq_true', not_and, Bool.not_eq_false,
        List.contains_iff_mem]
      exact ⟨fun h x other is => h x (inOrder x) ⟨is, other⟩, fun h x _ is => h x is.2 is.1⟩
  · simp [Arbiter.yields, yieldPolicy]

theorem Arbiter.continuing_iff {k : Nat} :
    a.continuing ready = some (src, k) ↔
      a.grant = some (src, k) ∧ ready src = true ∧ k < a.config.burst ∧ a.yields ready src = false := by
  refine ⟨Arbiter.continuing_eq_some, fun ⟨grant, is, below, stays⟩ => ?_⟩
  simp [Arbiter.continuing, grant, is, below, stays]

theorem Arbiter.continuing_eq_none_of {a : Arbiter}
    (h : ∀ src k, ¬ (a.grant = some (src, k) ∧ ready src = true ∧ k < a.config.burst ∧ a.yields ready src = false)) :
    a.continuing ready = none := by
  cases hc : a.continuing ready with
  | none => rfl
  | some g => exact absurd (Arbiter.continuing_iff.mp hc) (h g.1 g.2)

theorem Arbiter.continuing_of_no_grant (h : a.grant = none) : a.continuing ready = none := by
  simp [Arbiter.continuing, h]

end Decision

/-! ### A decision, by its parts -/

section

variable {s : State} {ready : Source → Bool} {src : Source}

theorem State.arbitrate_continues {k : Nat} (h : s.arbiter.sync.continuing ready = some (src, k)) :
    s.arbitrate ready = (s.setArbiter { s.arbiter.sync with grant := some (src, k + 1) }).beginFrame src := by
  simp only [State.arbitrate]
  rw [h]

theorem State.arbitrate_grants {l : List Source} (ended : s.arbiter.sync.continuing ready = none)
    (chosen : s.arbiter.sync.choose ready = some (src, l)) :
    s.arbitrate ready =
      (s.setArbiter { s.arbiter.sync with grant := some (src, 1), roundSet := l }).beginFrame src := by
  simp only [State.arbitrate]
  rw [ended]
  simp only
  rw [chosen]

theorem State.arbitrate_idle (h : ∀ x, ready x = false) :
    s.arbitrate ready = s.setArbiter { s.arbiter.sync with grant := none } := by
  have ended : s.arbiter.sync.continuing ready = none :=
    Arbiter.continuing_eq_none_of fun x _ ⟨_, is, _⟩ => absurd is (by simp [h x])
  simp only [State.arbitrate]
  rw [ended]
  simp only
  rw [Arbiter.choose_of_idle h]

/-- With no grant and one source seen ready, that source is granted (R137 to R141, R147). -/
theorem State.arbitrate_lone (mem : src ∈ s.arbiter.config.order) (free : s.arbiter.grant = none) :
    s.arbitrate (· == src) =
      (s.setArbiter { s.arbiter.sync with
        grant := some (src, 1), roundSet := s.arbiter.sync.roundAfter src }).beginFrame src := by
  refine State.arbitrate_grants (Arbiter.continuing_of_no_grant ?_) (Arbiter.choose_lone (by rwa [Arbiter.sync_config]))
  rw [Arbiter.sync_eq]
  simp [free]

end

/-! ### The end of a frame -/

theorem State.exec_frameEnd (s : State) (straps : RateCode) : exec (.frameEnd straps) s = .next (s.endFrame straps) := rfl

section

variable {s : State} {straps : RateCode} {bytes : List Byte} {i : EntryId}

theorem State.endFrame_notice (running : s.stopped = false) (onLine : s.tx = some ⟨.notice, bytes⟩) :
    s.endFrame straps = ({ s with tx := none } : State).arbitrate s.sourceReady := by
  simp only [State.endFrame, running, onLine, Bool.false_eq_true, if_false]
  rfl

theorem State.freeEntry_sourceReady (s : State) (i : EntryId) : (s.freeEntry i).sourceReady = s.sourceReady := by
  unfold State.freeEntry
  split <;> rfl

theorem State.endFrame_response (running : s.stopped = false) (onLine : s.tx = some ⟨.response i, bytes⟩)
    (plain : (s.entry i).scope = none) :
    s.endFrame straps =
      ((({ s with tx := none } : State).freeEntry i).beforeDecision).arbitrate
        ((({ s with tx := none } : State).freeEntry i).beforeDecision).sourceReady := by
  have plain' : (({ s with tx := none } : State).entry i).scope = none := plain
  simp only [State.endFrame, running, onLine, Bool.false_eq_true, if_false]
  rw [plain']

theorem State.endFrame_reset (running : s.stopped = false) (onLine : s.tx = some ⟨.response i, bytes⟩) {scope : ResetScope}
    (asked : (s.entry i).scope = some scope) :
    s.endFrame straps =
      (({ s with tx := none } : State).takeEffect scope straps).arbitrate
        (({ s with tx := none } : State).takeEffect scope straps).sourceReady := by
  have asked' : (({ s with tx := none } : State).entry i).scope = some scope := asked
  simp only [State.endFrame, running, onLine, Bool.false_eq_true, if_false]
  rw [asked']

theorem State.beforeDecision_of_nothing_due (drain : s.drainDue = false) (head : s.headReady = false) :
    s.beforeDecision = s := by
  simp [State.beforeDecision, drain, head]

theorem State.freeEntry_of_inUse (h : (s.entry i).inUse = true) :
    s.freeEntry i = { s with
      table :=
        { entries := Table.set s.table.entries i Entry.free
          dataInUse := if (s.entry i).cls = .data then s.table.dataInUse - 1 else s.table.dataInUse
          controlInUse := if (s.entry i).cls = .data then s.table.controlInUse else s.table.controlInUse - 1 } } := by
  rw [State.freeEntry, if_pos h]
  cases (s.entry i).cls <;> rfl

end

/-- Settles O48: the release of the entry, then the decision on the sources ready after it. -/
theorem frameEndReleasesTheEntry : Obligations.FrameEndReleasesTheEntry := by
  unfold Obligations.FrameEndReleasesTheEntry
  intro s straps bytes running a idle
  have idles {t : State} {ready : Source → Bool} (same : t.arbiter = s.arbiter) (h : ∀ x, ready x = false) :
      t.arbitrate ready = idle t := by
    rw [State.arbitrate_idle h, Arbiter.sync_eq, same]
    rfl
  constructor
  · intro i onLine used plain freed
    have released : ({ s with tx := none } : State).freeEntry i = freed := State.freeEntry_of_inUse used
    rw [State.exec_frameEnd, State.endFrame_response running onLine plain, released]
    refine ⟨fun drain head => ?_, fun due => ?_⟩
    · rw [State.beforeDecision_of_nothing_due drain head]
      exact ⟨rfl, fun h => congrArg _ (idles rfl h)⟩
    · refine ⟨Config.beforeDecision freed.freeCount, ?_⟩
      have : freed.beforeDecision =
          (Config.beforeDecision freed.freeCount).foldl State.consequence { freed with freeCount := s.freeCount + 1 } := by
        rw [State.beforeDecision, if_pos (by simpa using due)]
      rw [this]
  · intro onLine
    rw [State.exec_frameEnd, State.endFrame_notice running onLine]
    exact ⟨rfl, fun h => congrArg _ (idles rfl h)⟩

/-- Settles O45: a decision sees one source alone, the only ready one or the one a free value names among several. -/
theorem idleLineGrantsTheFirstReadySource : Obligations.IdleLineGrantsTheFirstReadySource := by
  unfold Obligations.IdleLineGrantsTheFirstReadySource
  intro s running silent free legal a round granted
  have lone (u : State) (same : u.arbiter = s.arbiter) (src : Source) : u.arbitrate (· == src) = granted u src := by
    rw [State.arbitrate_lone (by rw [same]; exact ArbiterConfig.mem_order legal src) (by rw [same]; exact free),
      Arbiter.sync_eq, same]
    rfl
  have due {x : Source} (is : s.sourceReady x = true) : s.grantDue = true := by
    simpa [State.grantDue, running, silent] using ⟨x, x.mem_all, is⟩
  have mem {x : Source} (is : s.sourceReady x = true) : x ∈ Source.all.filter s.sourceReady :=
    List.mem_filter.mpr ⟨x.mem_all, is⟩
  have nodup : (Source.all.filter s.sourceReady).Nodup := List.Nodup.filter _ (by decide)
  refine ⟨fun src is only => ?_, fun x y hx hy other => ?_, fun none_ready => ?_⟩
  · have single : Source.all.filter s.sourceReady = [src] :=
      List.perm_singleton.mp ((List.perm_ext_iff_of_nodup nodup (List.nodup_singleton src)).mpr fun x => by
        simpa [x.mem_all] using ⟨only x, fun same => same ▸ is⟩)
    show Host.Outcome.next s.grantIdle = _
    rw [State.grantIdle, if_pos (due is), single]
    exact congrArg _ (lone s rfl src)
  · have several : s.grantIdle =
        ({ s with freeCount := s.freeCount + 1 } : State).arbitrate (fun x => s.firstReady == some x) := by
      rw [State.grantIdle, if_pos (due hx)]
      split
      · rename_i none_ready
        exact absurd (mem hx) (by simp [none_ready])
      · rename_i one single
        have hx' := mem hx
        have hy' := mem hy
        rw [single, List.mem_singleton] at hx' hy'
        exact absurd (hx'.trans hy'.symm) other
      · rfl
    have nonempty : 0 < (Source.all.filter s.sourceReady).length := List.length_pos_of_mem (mem hx)
    obtain ⟨src, first⟩ : ∃ src, s.firstReady = some src :=
      ⟨_, List.getElem?_eq_getElem (Nat.mod_lt _ nonempty)⟩
    refine ⟨src, (List.mem_filter.mp (List.mem_of_getElem? first)).2, ?_⟩
    have seen : (fun x => s.firstReady == some x) = (· == src) := by
      funext x
      rw [first, Bool.eq_iff_iff, beq_iff_eq, beq_iff_eq, Option.some.injEq]
      exact eq_comm
    show Host.Outcome.next s.grantIdle = _
    rw [several, seen, lone { s with freeCount := s.freeCount + 1 } rfl src]
  · show Host.Outcome.next s.grantIdle = _
    rw [State.grantIdle, if_neg (by simp [State.grantDue, none_ready])]

theorem Arbiter.sync_of_same {a : Arbiter} (h : a.decisionMode = a.config.mode) : a.sync = a := by
  rw [Arbiter.sync, if_pos h.symm]

/-- Settles O49: the end of the frame leaves the arbiter as it was, and the parts of the decision are told apart. -/
theorem burstGoesOnOrANewGrantIsMade : Obligations.BurstGoesOnOrANewGrantIsMade := by
  unfold Obligations.BurstGoesOnOrANewGrantIsMade
  intro s u straps frame running onLine legal after a order linear same round granted first goesOn
  have ended : exec (.frameEnd straps) s = .next (u.arbitrate s.sourceReady) ∧ u.arbiter = s.arbiter := by
    obtain ⟨what, bytes⟩ := frame
    rw [State.exec_frameEnd]
    rcases after with ⟨rfl, rfl⟩ | ⟨i, rfl, plain, empty, noCommit, rfl⟩
    · rw [State.endFrame_notice running onLine]
      exact ⟨rfl, rfl⟩
    · have kept : (({ s with tx := none } : State).freeEntry i).beforeDecision = ({ s with tx := none } : State).freeEntry i := by
        refine State.beforeDecision_eq_self _ ?_ ?_ <;> (unfold State.freeEntry; split <;> assumption)
      rw [State.endFrame_response running onLine plain, kept, State.freeEntry_sourceReady]
      exact ⟨rfl, by unfold State.freeEntry; split <;> rfl⟩
  obtain ⟨ended, arbiter⟩ := ended
  rw [ended]
  have synced : u.arbiter.sync = { a with
      decisionMode := a.config.mode, roundSet := round, grant := if a.decisionMode = a.config.mode then a.grant else none } := by
    rw [arbiter, Arbiter.sync_eq]
  have goesOn_iff (src : Source) (k : Nat) : goesOn src k ↔ u.arbiter.sync.continuing s.sourceReady = some (src, k) := by
    rw [arbiter, Arbiter.continuing_iff, Arbiter.sync_config]
    by_cases unchanged : a.decisionMode = a.config.mode
    · rw [Arbiter.sync_of_same unchanged, Arbiter.yields_eq_false_iff legal]
      exact ⟨fun h => h.2, fun h => ⟨unchanged, h⟩⟩
    · refine ⟨fun h => absurd h.1 unchanged, fun h => ?_⟩
      rw [Arbiter.sync_eq] at h
      exact absurd ((if_neg unchanged).symm.trans h.1) (by simp)
  refine ⟨fun src k h => ?_, fun stops => ?_⟩
  · rw [State.arbitrate_continues ((goesOn_iff src k).mp h), synced]
    have : round = a.roundSet := if_pos h.1
    rw [this]
  have burstOver : u.arbiter.sync.continuing s.sourceReady = none := by
    cases hc : u.arbiter.sync.continuing s.sourceReady with
    | none => rfl
    | some g => exact absurd ((goesOn_iff g.1 g.2).mpr hc) (stops g.1 g.2)
  have grants {src : Source} {l : List Source} (chosen : u.arbiter.sync.choose s.sourceReady = some (src, l)) :
      Host.Outcome.next (u.arbitrate s.sourceReady) = (.next (granted src 1 l) : Host.Outcome State Fault Refusal) := by
    rw [State.arbitrate_grants burstOver chosen, synced]
  have isRound (h : ¬ linear) : u.arbiter.sync.config.mode = .round := by
    rw [synced]
    show a.config.mode = .round
    cases mode : a.config.mode
    · exact absurd mode h
    · rfl
  have roundSet : u.arbiter.sync.roundSet = round := by rw [synced]
  have order_eq : u.arbiter.sync.config.order = order := by rw [synced]
  refine ⟨fun pre src post split is => ⟨fun isLinear before => ?_, fun other fresh before => ?_, fun other all before => ?_⟩,
    fun idle => ?_⟩
  · refine grants (roundSet ▸ Arbiter.choose_linear ?_ (order_eq.trans split) is before)
    rw [synced]
    exact isLinear
  · refine grants (roundSet ▸ Arbiter.choose_round (isRound other) (order_eq.trans split) is ?_ ?_)
    · rwa [roundSet]
    · rwa [roundSet]
  · refine grants (Arbiter.choose_newRound (isRound other) (order_eq.trans split) is ?_ before)
    rwa [roundSet]
  · rw [State.arbitrate_idle idle, synced]

/-! ### The beginning of a frame and its bits -/

theorem State.beginResponse_of_complete {s : State} {i : EntryId} {status : Status}
    (complete : (s.entry i).state = .complete) (has : (s.entry i).status = some status) :
    s.beginResponse i =
      { s.setEntry i { s.entry i with state := .sending } with
        rx := { s.rx with advertised := 8 - s.rx.inbound.length }
        tx := some ⟨.response i,
          (Frame.characters ⟨0x80#8, (s.entry i).tag,
            [Byte.ofCount (8 - s.rx.inbound.length), (s.entry i).kind, status.code] ++
              if status = .badRequest then [] else (s.entry i).reply.bytes⟩)⟩ } := by
  simp only [State.beginResponse, complete, if_true, Entry.responseFrame, has, Option.getD_some]
  rfl

theorem ttxd_of_byte {s : State} {x : Sending} {j k : Nat} {v : Byte} {level : Level} (onLine : s.tx = some x)
    (byte : x.bytes[j]? = some v) (bit : (characterLevels v)[k]? = some level) : s.ttxd (10 * j + k) = level := by
  have below : k < 10 := by
    have := (List.getElem?_eq_some_iff.mp bit).1
    simpa using this
  have at_byte : ∀ (l : List Byte) (j : Nat), l[j]? = some v → (l.flatMap characterLevels)[10 * j + k]? = some level := by
    intro l
    induction l with
    | nil => simp
    | cons w l ih =>
      intro j hj
      rw [List.flatMap_cons]
      cases j with
      | zero =>
        have same : w = v := by simpa using hj
        rw [List.getElem?_append_left (by simpa using below), same]
        simpa using bit
      | succ j =>
        rw [List.getElem?_append_right (by rw [characterLevels_length]; omega), characterLevels_length]
        have : 10 * (j + 1) + k - 10 = 10 * j + k := by omega
        rw [this]
        exact ih j (by simpa using hj)
  rw [State.ttxd, onLine]
  simp [Sending.levels, at_byte _ _ byte]

/-- Settles O46: the frame of each kind of source, then its bits on TTXD. -/
theorem frameBeginsWithCreditAndSequence : Obligations.FrameBeginsWithCreditAndSequence := by
  unfold Obligations.FrameBeginsWithCreditAndSequence
  intro s credit rx line
  refine ⟨fun x rest queue => ?_, fun i rest status queue complete has => ?_, fun b i rest status queue complete has => ?_, ?_⟩
  · simp only [State.beginFrame, queue]
    rfl
  · simp only [State.beginFrame, queue]
    exact State.beginResponse_of_complete (s := s.setArbiter { s.arbiter with ctlQueue := rest }) complete has
  · simp only [State.beginFrame, queue]
    exact State.beginResponse_of_complete
      (s := s.setArbiter { s.arbiter with branchQueues := Table.set s.arbiter.branchQueues b rest }) complete has
  · intro bit data character
    refine ⟨fun x j v k level onLine byte level_at => ttxd_of_byte onLine byte level_at, fun k ends => ?_, fun v => ?_⟩
    · rcases ends with idle | ⟨x, onLine, past⟩
      · exact State.ttxd_idle idle k
      · have : x.levels[k]? = none := List.getElem?_eq_none (by simpa using past)
        simp [State.ttxd, onLine, this]
    · exact congrArg Sampled.good (valueOfLevels_of_bits v)

end Sys2Proof.Machine
end

section
/-! PROOFS. The resets and start-up: what each block holds as READY begins, and the two conditions. -/

namespace Sys2Proof.Machine

/-- A part in which one notice is all that waits begins its frame under a new grant (R137, R147, R163). -/
theorem State.arbitrate_lone_notice {u : State} {x : Notice} (queue : u.notices.queue = [x])
    (branches : ∀ b, Table.get u.arbiter.branchQueues b = []) (ctl : u.arbiter.ctlQueue = []) (free : u.arbiter.grant = none)
    (fresh : u.arbiter.roundSet = []) (mem : .ntc ∈ u.arbiter.config.order) :
    u.arbitrate u.sourceReady =
      (u.setArbiter { u.arbiter with
        decisionMode := u.arbiter.config.mode, grant := some (.ntc, 1)
        roundSet := if u.arbiter.config.mode = .round then [.ntc] else [] }).beginNotice x [] := by
  have seen : u.sourceReady = (· == .ntc) := by
    funext src
    cases src with
    | branch b => simp [State.sourceReady, branches b]
    | ctl => simp [State.sourceReady, ctl]
    | ntc => simp [State.sourceReady, queue]
  have round : u.arbiter.sync.roundAfter .ntc = if u.arbiter.config.mode = .round then [.ntc] else [] := by
    rw [Arbiter.sync_eq]
    cases mode : u.arbiter.config.mode <;> simp [Arbiter.roundAfter, fresh, mode]
  rw [seen, State.arbitrate_lone mem free, round, Arbiter.sync_eq]
  simp only [State.beginFrame, State.setArbiter_notices, queue]

theorem Arbiter.reset_branchQueues (b : BranchId) : Table.get Arbiter.reset.branchQueues b = [] :=
  Vector.getElem_replicate _

theorem Receiver.atStart_eq (trxd : Level) (rate : RateCode) :
    Receiver.atStart trxd rate = { Receiver.reset rate with
      waiting := decide (trxd = .spacing)
      spacing := if decide (trxd = .spacing) then some (2 * characterUnits rate) else none } := by
  cases trxd <;> rfl

theorem Engine.afterFull_eq (g : Engine) :
    g.afterFull = { Engine.reset with
      state := if g.state = .exchange ∨ g.state = .recovery then g.state else .disabled
      wire := if g.wire = .released then .released else .closingMark } := by
  have state : g.state.afterFull = if g.state = .exchange ∨ g.state = .recovery then g.state else .disabled := by
    cases g.state <;> rfl
  have wire : g.wire.afterFull = if g.wire = .released then .released else .closingMark := by
    cases g.wire <;> rfl
  rw [Engine.afterFull, state, wire]

theorem Receiver.afterReset_eq (rx : Receiver) (trxd : Level) (rate : RateCode) :
    rx.afterReset trxd rate = { Receiver.reset rate with
      waiting := decide (trxd = .spacing)
      spacing := if decide (trxd = .spacing) then some (2 * characterUnits rate) else none
      inCharacter := rx.inCharacter && decide (trxd = .marking ∧ rate = rx.rate)
      cut := rx.cut || (rx.inCharacter && !decide (trxd = .marking ∧ rate = rx.rate))
      breakEnding := rx.state == .inBreak } := by
  have same : (trxd == .marking && rate == rx.rate) = decide (trxd = .marking ∧ rate = rx.rate) := by
    rw [Bool.decide_and]
    rfl
  rw [Receiver.afterReset, Receiver.atStart_eq, same]

/-- Settles O51: every block at its power-on values, then the decision that grants READY. -/
theorem fullResetTakesEffect : Obligations.FullResetTakesEffect := by
  unfold Obligations.FullResetTakesEffect
  intro s i bytes straps running onLine asked goesOn spacing
  let u := ({ s with tx := none } : State).resetFull straps
  have decided : s.endFrame straps =
      (u.setArbiter { Arbiter.reset with grant := some (.ntc, 1) }).beginNotice (.ready .full 0#16) [] := by
    rw [State.endFrame_reset running onLine asked]
    exact State.arbitrate_lone_notice (u := u) rfl Arbiter.reset_branchQueues rfl rfl rfl
      (ArbiterConfig.mem_order ArbiterConfig.reset_legal .ntc)
  refine ⟨_, ((Notice.ready .full 0#16).frame 0#8 false 8).characters, congrArg Host.Outcome.next decided, ?_, rfl⟩
  simp only [State.beginNotice, State.setArbiter, u, State.resetFull, State.hand, State.setNotices, Receiver.afterReset_eq,
    Table.map_eq, funext Engine.afterFull_eq]
  rfl

theorem Engine.afterSoft_of_exchange {g : Engine} (h : g.state = .exchange) (busy : g.wire ≠ .closingMark) :
    g.afterSoft = { g with
      queue := [], inService := none, retryTimer := none, busyUsed := 0, checkUsed := 0
      state := .recovery, copy := some g.config, wire := .recovery .softReset } := by
  simp [Engine.afterSoft, h, busy]

theorem Engine.afterSoft_of_retryWait {g : Engine} (h : g.state = .retryWait) :
    g.afterSoft = { g with
      queue := [], inService := none, retryTimer := none, busyUsed := 0, checkUsed := 0
      state := if g.config.enabled then .idle else .disabled, copy := none, wire := .released } := by
  simp [Engine.afterSoft, h]

theorem Engine.afterSoft_of_going {g : Engine} (h : ¬ (g.state = .exchange ∧ g.wire ≠ .closingMark))
    (other : g.state ≠ .retryWait) :
    g.afterSoft =
      { g with queue := [], inService := none, retryTimer := none, busyUsed := 0, checkUsed := 0 } := by
  cases hs : g.state with
  | retryWait => exact absurd hs other
  | exchange =>
    have mark : g.wire = .closingMark := not_not.mp fun busy => h ⟨hs, busy⟩
    simp [Engine.afterSoft, hs, mark]
  | disabled => simp [Engine.afterSoft, hs]
  | idle => simp [Engine.afterSoft, hs]
  | faulted => simp [Engine.afterSoft, hs]
  | recovery => simp [Engine.afterSoft, hs]

theorem Engine.afterSoft_keeps (g : Engine) :
    g.afterSoft.queue = [] ∧ g.afterSoft.inService = none ∧ g.afterSoft.retryTimer = none ∧ g.afterSoft.busyUsed = 0 ∧
      g.afterSoft.checkUsed = 0 ∧ g.afterSoft.config = g.config ∧ g.afterSoft.lastFault = g.lastFault ∧
      g.afterSoft.recoveryTimer = g.recoveryTimer ∧ g.afterSoft.disablePending = g.disablePending := by
  by_cases abandoned : g.state = .exchange ∧ g.wire ≠ .closingMark
  · rw [Engine.afterSoft_of_exchange abandoned.1 abandoned.2]
    exact ⟨rfl, rfl, rfl, rfl, rfl, rfl, rfl, rfl, rfl⟩
  · by_cases waits : g.state = .retryWait
    · rw [Engine.afterSoft_of_retryWait waits]
      exact ⟨rfl, rfl, rfl, rfl, rfl, rfl, rfl, rfl, rfl⟩
    · rw [Engine.afterSoft_of_going abandoned waits]
      exact ⟨rfl, rfl, rfl, rfl, rfl, rfl, rfl, rfl, rfl⟩

/-- Settles O50: every block as R186 leaves it, then the decision that grants READY. -/
theorem softResetTakesEffect : Obligations.SoftResetTakesEffect := by
  unfold Obligations.SoftResetTakesEffect
  intro s i bytes straps running onLine asked legal
  let u := ({ s with tx := none } : State).resetSoft
  let t := (u.setArbiter { u.arbiter with
    decisionMode := u.arbiter.config.mode, grant := some (.ntc, 1)
    roundSet := if u.arbiter.config.mode = .round then [.ntc] else [] }).beginNotice (.ready .soft s.routes.generation) []
  have decided : s.endFrame straps = t := by
    rw [State.endFrame_reset running onLine asked]
    exact State.arbitrate_lone_notice (u := u) rfl Arbiter.reset_branchQueues rfl rfl rfl (ArbiterConfig.mem_order legal .ntc)
  have receiver : u.rx = _ := s.rx.afterReset_eq s.trxd s.rx.rate
  have credit : u.rx.freeSlots = 8 := by rw [receiver]; rfl
  have engine (b : BranchId) : t.engine b = (s.engine b).afterSoft :=
    Table.get_map _ _ b
  refine ⟨t, congrArg Host.Outcome.next decided, rfl, rfl, rfl, rfl, rfl, ⟨_, rfl, rfl, ?_⟩, rfl, ?_⟩
  · show (Notice.frame _ s.notices.sequence false u.rx.freeSlots).characters.take 10 = _
    rw [credit]
    rfl
  · show u.rx.state = _ ∧ u.rx.building = _ ∧ u.rx.gap = _ ∧ u.rx.inbound = _ ∧ u.rx.freeSlots = 8 ∧ u.rx.lastTag = _ ∧
      u.rx.rate = _ ∧ (u.rx.waiting = true ↔ _) ∧ u.rx.spacing = _ ∧ (u.rx.inCharacter = true ↔ _) ∧
      (u.rx.cut = true ↔ _) ∧ (u.rx.breakEnding = true ↔ _) ∧ _ ∧ _ ∧
      ∀ b, (t.engine b).queue = [] ∧ _
    rw [credit, receiver]
    refine ⟨rfl, rfl, rfl, rfl, rfl, rfl, rfl, by simp, by simp, by simp, ?_, by simp, rfl, rfl, fun b => ?_⟩
    · cases s.trxd <;> simp
    · obtain ⟨queue, served, retry, busy, check, config, fault, recovery, flag⟩ := (s.engine b).afterSoft_keeps
      rw [engine b]
      refine ⟨queue, served, retry, busy, check, config, fault, recovery, flag, fun abandoned => ?_, fun waits => ?_,
        fun going other => ?_⟩
      · rw [Engine.afterSoft_of_exchange abandoned.1 abandoned.2]
        exact ⟨rfl, rfl, rfl⟩
      · rw [Engine.afterSoft_of_retryWait waits]
        exact ⟨rfl, rfl, rfl⟩
      · rw [Engine.afterSoft_of_going going other]
        exact ⟨rfl, rfl, rfl⟩

/-- Settles O52. -/
theorem supplyAndPinStopAndStartThePart : Obligations.SupplyAndPinStopAndStartThePart := by
  unfold Obligations.SupplyAndPinStopAndStartThePart
  have stop (s : State) : s.stop = { s with
      tx := none
      engines := s.engines.map (fun g : Engine => { g with wire := .released })
      rx := { s.rx with
        state := .hunt, building := none, gap := none, spacing := none, inCharacter := false, cut := false,
        breakEnding := false } } := by
    rw [State.stop, Table.map_eq]
  refine ⟨fun s => ?_, fun s straps => ?_⟩
  · exact ⟨congrArg Host.Outcome.next (stop _), congrArg Host.Outcome.next (stop _)⟩
  · intro spacing started
    have start (cause : ResetCause) : s.startUp straps cause = started cause := by
      rw [State.startUp, Receiver.atStart_eq]
      rfl
    have stable : exec (.powerStable straps) s = .next (s.stabilizePower straps) := rfl
    have release : exec (.rstnRelease straps) s = .next (s.releasePin straps) := rfl
    rw [stable, release, State.stabilizePower, State.releasePin]
    refine ⟨fun power pin => ?_, fun power pin => ?_, fun power pin => ?_⟩
    · simp [power, pin, start]
    · simp [power, pin]
    · simp [power, pin, start]

/-- The state right after reset is one that a start-up leaves. -/
theorem State.reset_eq_startUp : State.reset.startUp 0#2 .power = State.reset := rfl

/-- Settles O53: every part of the state right after reset is empty or at its power-on value. -/
theorem resetStateIsSound : Obligations.ResetStateIsSound := by
  have placed : State.reset.PlacedBut ∅ none := State.reset_eq_startUp ▸ State.reset.startUp_placedBut 0#2 .power
  have engines : State.reset.EnginesFit := fun b => by
    have idle : State.reset.engine b = Engine.reset := Table.get_replicate _ b
    rw [idle]
    exact Engine.reset_fit
  exact ⟨NoticeUnit.hand_sound (NoticeUnit.sound_of_empty (n := NoticeUnit.reset) rfl) (.ready .power 0#16),
    State.tableSound_of_reset rfl, RouteUnit.reset_sound,
    ⟨Receiver.sound_of_idle (.inl rfl) rfl rfl (Nat.zero_le 8) (Nat.le_refl 8), nofun, nofun⟩, engines.enginesSound,
    ⟨ArbiterConfig.reset_legal, nofun⟩, List.Pairwise.nil, State.reset.placed_iff.mpr placed⟩

end Sys2Proof.Machine
end

section
/-! PROOFS. The bytes of replies, notices and codes. -/

namespace Sys2Proof.Machine

theorem outcomeBytes_eq (l : List (BranchId × Status)) :
    outcomeBytes l = Byte.ofCount l.length :: (l.map (fun x => [Byte.ofCount x.1.val, x.2.code])).flatten := by
  rw [outcomeBytes, List.flatMap_def]

theorem memberBytes_eq (l : List RouteMember) : memberBytes l = (l.map (fun m => [m.branch, m.device, m.base])).flatten := by
  rw [memberBytes, List.flatMap_def]

theorem Rights.byte_eq (r : Rights) :
    r.byte = ((if r.read then 1#8 else 0#8) ||| (if r.write then 2#8 else 0#8) ||| (if r.watch then 4#8 else 0#8)) := rfl

/-- The state codes of a snapshot stand in the order of the branches. -/
theorem Snapshot.branches_toList (x : Snapshot) :
    x.branches.toList = [Table.get x.branches 0, Table.get x.branches 1, Table.get x.branches 2, Table.get x.branches 3] :=
  List.ext_getElem (by simp) fun k _ below => by
    have : k < 4 := by simpa using below
    interval_cases k <;> simp [Table.get]

/-- Settles O47: each kind of reply, each notice, then the code tables. -/
theorem repliesAndNoticesHaveTheirLayouts : Obligations.RepliesAndNoticesHaveTheirLayouts := by
  unfold Obligations.RepliesAndNoticesHaveTheirLayouts
  refine ⟨fun a n d l => ?_, fun x st branches => ?_, fun g slot other reason => ⟨rfl, rfl, rfl, rfl, rfl⟩,
    fun bank slot r g => ?_, fun b c st pending depth reason a tag => ⟨rfl, rfl, rfl, rfl, rfl, rfl⟩,
    fun cause g tag kind count reason status l b st why => ?_, fun cause g tag first kind count link status l b st why => rfl,
    rfl, rfl, rfl, rfl, rfl, rfl, rfl, rfl, rfl, rfl, rfl, rfl, rfl⟩
  · refine ⟨rfl, by simp [Reply.bytes, halfBytes], ?_, rfl, rfl⟩
    simp [Reply.bytes, halfBytes, outcomeBytes_eq]
  · constructor
    all_goals intros; simp_all [Reply.bytes, Snapshot.bytes, halfBytes, Snapshot.branches_toList, CommitMode.code, yesNo]
  · cases bank <;> simp [Reply.bytes, Route.bytes, halfBytes, memberBytes_eq, Rights.byte_eq, BankSelector.code]
  · refine ⟨rfl, rfl, rfl, rfl, rfl, rfl, ?_, rfl, rfl⟩
    rw [Notice.bytes, outcomeBytes_eq]
    rfl

end Sys2Proof.Machine
end

section
/-! PROOFS. The engines, one happening at a time: a rule for each way in which a try, an item or a recovery ends, then the
statements about them. -/

namespace Sys2Proof.Machine

/-! ### Work on entries does not look at the engines -/

section WithEngines

variable (s : State) (v : Vector Engine 4)

/-- The state with every engine replaced. -/
def State.withEngines : State := { s with engines := v }

theorem State.setEngine_eq_withEngines (b : BranchId) (g : Engine) :
    s.setEngine b g = s.withEngines (Table.set s.engines b g) := rfl

theorem State.freeEntry_withEngines (i : EntryId) :
    (s.withEngines v).freeEntry i = (s.freeEntry i).withEngines v := by
  have same : (s.withEngines v).entry i = s.entry i := rfl
  unfold State.freeEntry
  rw [same]
  split <;> rfl

theorem State.endPosted_withEngines (i : EntryId) (st : Status) :
    (s.withEngines v).endPosted i st = (s.endPosted i st).withEngines v := by
  simp only [State.endPosted, State.freeEntry_withEngines]
  split <;> rfl

theorem State.finishEntry_withEngines (i : EntryId) :
    (s.withEngines v).finishEntry i = (s.finishEntry i).withEngines v := by
  have same : (s.withEngines v).entry i = s.entry i := rfl
  simp only [State.finishEntry, State.endPosted_withEngines, same]
  split <;> rfl

theorem State.settle_withEngines (i : EntryId) :
    (s.withEngines v).settle i = (s.settle i).withEngines v := by
  have same : (s.withEngines v).entry i = s.entry i := rfl
  simp only [State.settle, State.finishEntry_withEngines, same]
  cases (s.entry i).state <;> dsimp only <;> split <;> rfl

theorem State.finishMember_withEngines (it : Item) (o : Status) :
    (s.withEngines v).finishMember it o = (s.finishMember it o).withEngines v :=
  State.settle_withEngines (s.setMember it .finished (some o)) v it.entry

theorem State.foldl_withEngines {α : Type} {f : State → α → State}
    (hf : ∀ s a, f (s.withEngines v) a = (f s a).withEngines v) (l : List α) :
    l.foldl f (s.withEngines v) = (l.foldl f s).withEngines v := by
  induction l generalizing s with
  | nil => rfl
  | cons a l ih => rw [List.foldl_cons, List.foldl_cons, hf, ih]

end WithEngines

theorem State.finishMember_setEngine (s : State) (b : BranchId) (g : Engine) (it : Item) (o : Status) :
    (s.setEngine b g).finishMember it o = (s.finishMember it o).setEngine b g := by
  rw [State.setEngine_eq_withEngines, State.finishMember_withEngines, State.setEngine_eq_withEngines,
    State.finishMember_engines]

/-! ### A flush is work on entries, and the queue emptied -/

/-- Items end with an outcome one after the other. -/
def State.finishAll (s : State) (l : List Item) (o : Status) : State := l.foldl (fun s it => s.finishMember it o) s

/-- The members of the waiting watches of a branch, in the order of the list of timers. -/
def State.watchItems (s : State) (b : BranchId) : List Item :=
  (s.timers.filter (s.timerOn b)).map (fun t => { entry := t.entry, member := 0 })

/-- Items, and after them the waiting watches of a branch, end with an outcome, the timers of these watches removed. -/
def State.endWork (s : State) (b : BranchId) (items : List Item) (o : Status) : State :=
  (s.setTimers (s.timers.filter (fun t => !s.timerOn b t))).finishAll (items ++ s.watchItems b) o

section

variable {s : State} {b : BranchId} {g : Engine}

theorem State.finishAll_withEngines (s : State) (v : Vector Engine 4) (l : List Item) (o : Status) :
    (s.withEngines v).finishAll l o = (s.finishAll l o).withEngines v :=
  State.foldl_withEngines _ _ (fun s it => State.finishMember_withEngines s _ it o) l

@[simp] theorem State.finishAll_engines (s : State) (l : List Item) (o : Status) : (s.finishAll l o).engines = s.engines :=
  State.foldl_engines (fun s it => State.finishMember_engines s it o) l s

@[simp] theorem State.finishAll_timers (s : State) (l : List Item) (o : Status) : (s.finishAll l o).timers = s.timers :=
  State.foldl_timers (fun s it => State.finishMember_timers s it o) l s

theorem State.endWork_withEngines (s : State) (v : Vector Engine 4) (b : BranchId) (items : List Item) (o : Status) :
    (s.withEngines v).endWork b items o = (s.endWork b items o).withEngines v :=
  State.finishAll_withEngines (s.setTimers (s.timers.filter (fun t => !s.timerOn b t))) v (items ++ s.watchItems b) o

@[simp] theorem State.endWork_engines (s : State) (b : BranchId) (items : List Item) (o : Status) :
    (s.endWork b items o).engines = s.engines := State.finishAll_engines ..

theorem State.flushBranch_eq (s : State) (b : BranchId) (o : Status) :
    s.flushBranch b o = (s.endWork b (s.engine b).queue o).setEngine b { s.engine b with queue := [] } := by
  rw [State.setEngine_eq_withEngines, State.endWork_engines, ← State.endWork_withEngines, State.endWork, State.finishAll,
    List.foldl_append, State.watchItems, List.foldl_map]
  rfl

theorem State.endWork_setEngine (s : State) (b : BranchId) (g : Engine) (items : List Item) (o : Status) :
    (s.setEngine b g).endWork b items o = (s.endWork b items o).setEngine b g := by
  rw [State.setEngine_eq_withEngines, State.setEngine_eq_withEngines, State.endWork_engines, State.endWork_withEngines]

/-- An engine replaced after a flush is all that is left of it. -/
theorem State.flushBranch_replaced (s : State) (b : BranchId) (o : Status) (g : Engine) :
    (s.flushBranch b o).setEngine b g = (s.endWork b (s.engine b).queue o).setEngine b g := by
  rw [State.flushBranch_eq, State.setEngine_setEngine]

/-- A flush of a branch whose engine has been replaced, its queue kept, is a flush and then the replacement. -/
theorem State.flushBranch_setEngine (o : Status) (h : g.queue = (s.engine b).queue) :
    (s.setEngine b g).flushBranch b o = (s.flushBranch b o).setEngine b { g with queue := [] } := by
  rw [State.flushBranch_replaced, State.flushBranch_eq, State.setEngine_engine_self, State.endWork_setEngine,
    State.setEngine_setEngine, h]

/-! ### The end of an item -/

theorem State.carryOutDisable_eq (s : State) (b : BranchId) :
    s.carryOutDisable b = (s.flushBranch b .branchDown).setEngine b
      { s.engine b with
        queue := [], state := .disabled, disablePending := false, retryTimer := none, recoveryTimer := none,
        copy := none, wire := if (s.engine b).wire = .closingMark then .closingMark else .released } := by
  rw [State.carryOutDisable, State.flushBranch_engine, if_pos rfl]

theorem State.endItem_of_staying (h : (s.engine b).disablePending = false) :
    s.endItem b = s.setEngine b { s.engine b with state := .idle, inService := none, copy := none, wire := .released } := by
  simp [State.endItem, h]

theorem State.endItem_of_disablePending (h : (s.engine b).disablePending = true) :
    s.endItem b =
      ((s.setEngine b { s.engine b with state := .idle, inService := none, copy := none, wire := .released }).flushBranch b
        .branchDown).setEngine b
        { s.engine b with
          inService := none, copy := none, wire := .released, queue := [], state := .disabled, disablePending := false
          retryTimer := none, recoveryTimer := none } := by
  rw [State.endItem, if_pos h, State.carryOutDisable_eq, State.setEngine_engine_self]
  rfl

/-! ### What an item in service leads to -/

section Served

variable {it : Item} {m : Member} {answer : TargetAnswer} {bck bda : Bool}

theorem State.servedIn_of {st : EngineState} (running : s.stopped = false) (state : (s.engine b).state = st)
    (served : (s.engine b).inService = some it) : s.servedIn b st = some it := by
  simp [State.servedIn, running, state, served]

theorem State.exec_exchangeEnd (running : s.stopped = false) (state : (s.engine b).state = .exchange)
    (served : (s.engine b).inService = some it) (member : s.member it = some m) :
    exec (.exchangeEnd b answer bck bda) s =
      .next (s.endTry b it ((s.entry it.entry).tryResult m answer) bck bda) := by
  show Host.Outcome.next (s.endExchange b answer bck bda) = _
  rw [State.endExchange, State.servedIn_of running state served]
  simp only [member]

theorem State.cellsOf_of_member (h : s.member it = some m) : s.cellsOf it = (s.entry it.entry).sentCells m := by
  rw [State.cellsOf, h]

theorem State.beginTry_of_served (served : (s.engine b).inService = some it) (member : s.member it = some m) :
    s.beginTry b bck bda = s.setEngine b
      { s.engine b with
        state := if bck = true ∧ bda = true then .exchange else .recovery
        copy := some (s.engine b).config, retryTimer := none
        wire := if bck = true ∧ bda = true then .exchange ((s.entry it.entry).sentCells m) else .recovery .beforeTry } := by
  have cells : ((s.engine b).inService.map s.cellsOf).getD [] = (s.entry it.entry).sentCells m := by
    rw [served]
    exact State.cellsOf_of_member member
  simp only [State.beginTry, Bool.and_eq_true, cells]
  split <;> rfl

end Served

end

/-- Settles O40: both happenings are those of an engine that serves an item. -/
theorem holdAndRetryTimersRunOut : Obligations.HoldAndRetryTimersRunOut := by
  unfold Obligations.HoldAndRetryTimersRunOut
  intro s b it m running served member g
  refine ⟨fun state => ?_, fun state => ?_, fun bck bda low state => ?_⟩
  · show Host.Outcome.next (s.timeOutHold b) = _
    rw [State.timeOutHold, State.servedIn_of running state served]
  · show Host.Outcome.next (s.expireRetry b true true) = _
    rw [State.expireRetry, State.servedIn_of running state served]
    exact congrArg _ ((State.beginTry_of_served served member).trans (by simp [g]))
  · show Host.Outcome.next (s.expireRetry b bck bda) = _
    rw [State.expireRetry, State.servedIn_of running state served]
    have not_both : ¬ (bck = true ∧ bda = true) := by rcases low with rfl | rfl <;> simp
    exact congrArg _ ((State.beginTry_of_served served member).trans (by simp [g, not_both]))

/-! ### The completion test -/

theorem Entry.setMember_eq_set {e : Entry} {k : Nat} {m : Member} (h : e.members[k]? = some m) (st : MemberState)
    (o : Option Status) :
    e.setMember k st o = { e with members := e.members.set k { m with state := st, outcome := o } } := by
  rw [Entry.setMember, List.modify_eq_set_getElem?, h]
  rfl

theorem Entry.unfinished_iff (e : Entry) :
    e.unfinished = true ↔ ∃ x ∈ e.members, x.state = .pending ∨ x.state = .inService := by
  simp [Entry.unfinished, Member.unfinished]

/-- An entry is at work while members of it may be PENDING or IN_SERVICE (R31). -/
def Entry.working (e : Entry) : Prop := e.state = .queued ∨ e.state = .active ∨ e.state = .waiting

section Settle

variable {s : State} {i : EntryId}

theorem State.settle_of_unfinished (h : (s.entry i).unfinished = true) : s.settle i = s := by
  simp only [State.settle, h]
  cases (s.entry i).state <;> rfl

theorem State.settle_of_finished (working : (s.entry i).working) (h : (s.entry i).unfinished = false) :
    s.settle i = s.finishEntry i := by
  simp only [State.settle, h]
  rcases working with hs | hs | hs <;> rw [hs] <;> rfl

theorem State.freeEntry_setEntry {e : Entry} (used : (s.entry i).inUse = true) (follows : e.cls = (s.entry i).cls)
    (usedAfter : e.inUse = true) : (s.setEntry i e).freeEntry i = s.freeEntry i := by
  rw [State.freeEntry, State.freeEntry, State.setEntry_entry_self, if_pos used, if_pos usedAfter, follows]
  cases (s.entry i).cls <;> simp [OutstandingTable.lower, State.setEntry, Table.set]

theorem Entry.working.inUse {e : Entry} (h : e.working) : e.inUse = true := by
  rcases h with hs | hs | hs <;> simp [Entry.inUse, hs]

/-- A record of an entry at work is replaced by one of which no member is at work, and the completion test follows. -/
theorem State.settle_setEntry {e : Entry} (working : (s.entry i).working) (state : e.state = (s.entry i).state)
    (cls : e.cls = (s.entry i).cls) (finished : e.unfinished = false) :
    (e.posted = false → (s.setEntry i e).settle i =
      (s.setEntry i
        { e with state := .complete, status := some e.decidedStatus, reply := e.dataReply e.decidedStatus }).setArbiter
        (s.arbiter.join e.source i)) ∧
    (e.posted = true → (s.setEntry i e).settle i =
      if e.decidedStatus = .ok ∨ e.decidedStatus = .cancelled then s.freeEntry i
      else (s.freeEntry i).hand (.postedFailed e.tag e.decidedStatus e.postedOutcomes)) := by
  have working' : e.working := by
    unfold Entry.working
    rwa [state]
  have settled : (s.setEntry i e).settle i = (s.setEntry i e).finishEntry i :=
    State.settle_of_finished (by rwa [State.setEntry_entry_self]) (by rwa [State.setEntry_entry_self])
  rw [settled, State.finishEntry, State.setEntry_entry_self]
  refine ⟨fun posted => ?_, fun posted => ?_⟩
  · simp only [posted, Bool.false_eq_true, if_false, State.completeEntry, State.setEntry_entry_self, State.setEntry_setEntry]
    rfl
  · simp only [posted, if_true, State.endPosted, State.setEntry_entry_self,
      State.freeEntry_setEntry working.inUse cls working'.inUse]

end Settle

/-- A member finishes, or is dropped, and the completion test follows. -/
theorem State.setMember_settle {s : State} {it : Item} {m : Member} (st : MemberState) (o : Option Status)
    (member : s.member it = some m) (working : (s.entry it.entry).working) :
    let e := { s.entry it.entry with
      members := (s.entry it.entry).members.set it.member { m with state := st, outcome := o } }
    let t := (s.setMember it st o).settle it.entry
    ((∃ x ∈ e.members, x.state = .pending ∨ x.state = .inService) → t = s.setEntry it.entry e) ∧
    ((∀ x ∈ e.members, x.state ≠ .pending ∧ x.state ≠ .inService) →
      (e.posted = false →
        t = (s.setEntry it.entry
          { e with state := .complete, status := some e.decidedStatus, reply := e.dataReply e.decidedStatus }).setArbiter
          (s.arbiter.join e.source it.entry)) ∧
      (e.posted = true →
        t = if e.decidedStatus = .ok ∨ e.decidedStatus = .cancelled then s.freeEntry it.entry
          else (s.freeEntry it.entry).hand (.postedFailed e.tag e.decidedStatus e.postedOutcomes))) := by
  intro e t
  have set : s.setMember it st o = s.setEntry it.entry e := by
    rw [State.setMember, Entry.setMember_eq_set member]
  have unfinished : e.unfinished = true ↔ _ := e.unfinished_iff
  refine ⟨fun left => ?_, fun ended => ?_⟩
  · show (s.setMember it st o).settle it.entry = _
    rw [set]
    exact State.settle_of_unfinished (by rw [State.setEntry_entry_self]; exact unfinished.mpr left)
  · show (e.posted = false → (s.setMember it st o).settle it.entry = _) ∧
      (e.posted = true → (s.setMember it st o).settle it.entry = _)
    rw [set]
    refine State.settle_setEntry working rfl rfl ?_
    refine Bool.eq_false_iff.mpr fun left => ?_
    obtain ⟨x, mem, pending | inService⟩ := unfinished.mp left
    · exact (ended x mem).1 pending
    · exact (ended x mem).2 inService

/-! ### Results of a try -/

section Results

variable {e : Entry} {m : Member}

theorem Entry.reads_iff (e : Entry) : e.reads = true ↔ e.kind = 0x01#8 ∨ e.kind = 0x04#8 := by
  have named (k : Kind) : e.kind = k.code ↔ Kind.ofCode e.kind = some k := (Kind.ofCode_eq_some_iff e.kind k).symm
  show _ ↔ e.kind = Kind.read.code ∨ e.kind = Kind.watch.code
  rw [named, named, Entry.reads]
  generalize Kind.ofCode e.kind = found
  cases found with
  | none => simp
  | some k => cases k <;> simp

theorem Entry.reads_of_writes (writes : e.kind = 0x02#8 ∨ e.kind = 0x03#8) : e.reads = false := by
  rw [Bool.eq_false_iff, Ne, e.reads_iff]
  rcases writes with h | h <;> rw [h] <;> decide

theorem Entry.tryResult_of_writes (writes : e.reads = false) (sent : List Byte) :
    e.tryResult m (.cells sent) = statusResult (cellAt sent 0) := by
  simp [Entry.tryResult, writes]

/-- The lead cells of a READ (R68, R69). -/
theorem Entry.leadCells_of_reads (reads : e.reads = true) :
    e.leadCells m = [(m.device <<< 3) ||| 0b001#8, m.register, Byte.ofCount (e.length.getD 0)] := by
  simp [Entry.leadCells, headerCell, reads]

theorem Entry.tryResult_of_reads (reads : e.reads = true) (sent : List Byte) :
    e.tryResult m (.cells sent) =
      let n := e.length.getD 0
      let value := (List.range n).map (cellAt sent)
      if crc8 ([(m.device <<< 3) ||| 0b001#8, m.register, Byte.ofCount n] ++ value) = cellAt sent n then .good value
      else .checkFailure := by
  simp only [Entry.tryResult, reads, if_true, Entry.readResult, Entry.leadCells_of_reads reads]

theorem cellAt_range (value rest : List Byte) : (List.range value.length).map (cellAt (value ++ rest)) = value := by
  refine List.ext_getElem (by simp) fun k below inside => ?_
  simp [cellAt, List.getElem?_append_left inside, List.getElem?_eq_getElem inside]

theorem cellAt_length (value rest : List Byte) (v : Byte) : cellAt (value ++ v :: rest) value.length = v := by
  simp [cellAt]

/-- A READ whose check agrees is good (R70). -/
theorem Entry.tryResult_of_good_read {value : List Byte} (reads : e.reads = true) (length : e.length = some value.length) :
    e.tryResult m (.cells (value ++
      [crc8 ([(m.device <<< 3) ||| 0b001#8, m.register, Byte.ofCount value.length] ++ value)])) = .good value := by
  rw [Entry.tryResult_of_reads reads, length]
  simp only [Option.getD_some, cellAt_range, cellAt_length, if_true]

end Results

/-! ### Recoveries -/

section Recoveries

variable {s : State} {b : BranchId} {it : Item} {cause : RecoveryCause} {bck bda : Bool}

theorem State.endRecovery_beforeTry (running : s.stopped = false) (state : (s.engine b).state = .recovery)
    (wire : (s.engine b).wire = .recovery .beforeTry) (served : (s.engine b).inService = some it) :
    s.endRecovery b true true = s.tryAfterRecovery b it := by
  simp [State.endRecovery, running, state, wire, served]

theorem State.endRecovery_afterHold (running : s.stopped = false) (state : (s.engine b).state = .recovery)
    (wire : (s.engine b).wire = .recovery .afterHold) (served : (s.engine b).inService = some it) :
    s.endRecovery b true true = (s.finishMember it .holdTimeout).endItem b := by
  simp [State.endRecovery, running, state, wire, served, State.endItemWith]

theorem State.endRecovery_bare (running : s.stopped = false) (state : (s.engine b).state = .recovery)
    (wire : (s.engine b).wire = .recovery cause) (free : (s.engine b).inService = none) :
    s.endRecovery b true true = s.endBareRecovery b := by
  simp [State.endRecovery, running, state, wire, free]

theorem State.endRecovery_fails (running : s.stopped = false) (state : (s.engine b).state = .recovery)
    (wire : (s.engine b).wire = .recovery cause) (low : bck = false ∨ bda = false) :
    s.endRecovery b bck bda = s.fault b cause.reason := by
  have not_both : (bck && bda) = false := by rcases low with rfl | rfl <;> simp
  simp [State.endRecovery, running, state, wire, not_both]

/-- The one member of an entry finishes, and the entry completes: CANCELLED where a CANCEL has marked it, else with the member's
outcome (R34, R37, R38). -/
theorem State.finishMember_only {i : EntryId} {m : Member} (working : (s.entry i).working) (members : (s.entry i).members = [m])
    (posted : (s.entry i).posted = false) (o : Status) :
    let e := { s.entry i with members := [{ m with state := .finished, outcome := some o }] }
    let status := if (s.entry i).cancelRequested then .cancelled else o
    s.finishMember ⟨i, 0⟩ o =
      (s.setEntry i { e with state := .complete, status := some status, reply := e.dataReply status }).setArbiter
        (s.arbiter.join (s.entry i).source i) := by
  intro e status
  have member : s.member ⟨i, 0⟩ = some m := by simp [State.member, members]
  have decided : e.decidedStatus = status := by
    simp [Entry.decidedStatus, Entry.outcomes, combinedStatus, e, status]
  obtain ⟨-, ended⟩ := State.setMember_settle .finished (some o) member working
  have only : (s.entry i).members.set 0 { m with state := .finished, outcome := some o } =
      [{ m with state := .finished, outcome := some o }] := by rw [members]; rfl
  simp only [only] at ended
  rw [State.finishMember, (ended (by simp)).1 posted, ← decided]

theorem Entry.dataReply_read {e : Entry} {a : Half} {n : Nat} (kind : e.kind = 0x01#8) (address : e.address = some a)
    (length : e.length = some n) (o : Status) : e.dataReply o = .read a n (if o = .ok then some e.data else none) := by
  simp only [Entry.dataReply, (Kind.ofCode_eq_some_iff _ .read).mpr kind, address, length, Option.getD_some]

theorem Entry.dataReply_watch {e : Entry} {a : Half} {n : Nat} (kind : e.kind = 0x04#8) (address : e.address = some a)
    (length : e.length = some n) (o : Status) : e.dataReply o = .watch a n (e.watch.bind (·.last)) := by
  simp only [Entry.dataReply, (Kind.ofCode_eq_some_iff _ .watch).mpr kind, address, length, Option.getD_some]

theorem Entry.dataReply_write {e : Entry} {a : Half} {n : Nat} (kind : e.kind = 0x02#8) (address : e.address = some a)
    (length : e.length = some n) (o : Status) : e.dataReply o = .write a n (if e.group then e.outcomes else []) := by
  simp only [Entry.dataReply, (Kind.ofCode_eq_some_iff _ .write).mpr kind, address, length, Option.getD_some]

/-- The one member of a DIRECT entry that no CANCEL has marked finishes: the entry completes into the source of its branch with the
member's outcome (R31, R34, R38). -/
theorem State.finishMember_direct {i : EntryId} {m : Member} {c : BranchId} {o : Status} {reply : Reply}
    (working : (s.entry i).working) (members : (s.entry i).members = [m]) (posted : (s.entry i).posted = false)
    (cancel : (s.entry i).cancelRequested = false) (source : (s.entry i).source = .branch c)
    (replies : { s.entry i with members := [{ m with state := .finished, outcome := some o }] }.dataReply o = reply) :
    s.finishMember ⟨i, 0⟩ o =
      (s.setEntry i { s.entry i with
        state := .complete, members := [{ m with state := .finished, outcome := some o }], status := some o
        reply := reply }).joinBranch c i := by
  rw [State.finishMember_only working members posted, if_neg (by simp [cancel]), replies]
  exact congrArg (fun src => State.setArbiter _ (s.arbiter.join src i)) source

end Recoveries

/-- Settles O41: the cause of the recovery and the item in service say what follows. -/
theorem successfulRecoveryGoesOn : Obligations.SuccessfulRecoveryGoesOn := by
  unfold Obligations.SuccessfulRecoveryGoesOn
  intro s b running recovering g
  have ends : exec (.recoveryEnd b true true) s = .next (s.endRecovery b true true) := rfl
  rw [ends]
  refine ⟨fun it m wire served member => ?_, fun it wire served => ?_, fun i m c a n wire served staying kind active members
    posted cancel source address length => ?_, fun cause wire free => ?_⟩
  · rw [State.endRecovery_beforeTry running recovering wire served, State.tryAfterRecovery]
    refine ⟨fun cancel => ?_, fun cancel pending => ?_, fun cancel staying => ?_⟩
    · rw [if_pos cancel]
    · rw [if_neg (by simp [cancel]), if_pos pending]
      rfl
    · rw [if_neg (by simp [cancel]), if_neg (Bool.eq_false_iff.mp staying), State.cellsOf_of_member member]
  · rw [State.endRecovery_afterHold running recovering wire served]
  · rw [State.endRecovery_afterHold running recovering wire served,
      State.finishMember_direct (.inr (.inl active)) members posted cancel source (Entry.dataReply_read (by exact kind) (by exact address)
        (by exact length) _)]
    exact congrArg _ (State.endItem_of_staying staying)
  · rw [State.endRecovery_bare running recovering wire free]
    refine ⟨fun staying => ?_, fun pending => ?_⟩
    · rw [State.endBareRecovery, if_neg (Bool.eq_false_iff.mp staying), ← free]
    · rw [State.endBareRecovery, if_pos pending, State.carryOutDisable_eq, State.setEngine_engine_self,
        State.flushBranch_setEngine _ (by exact rfl), State.setEngine_setEngine, ← free]
      rfl

/-- Settles O43: the attempts of a FAULTED engine, then the end of a reset's closing mark. -/
theorem periodicRecoveryAndResetClosingMark : Obligations.PeriodicRecoveryAndResetClosingMark := by
  unfold Obligations.PeriodicRecoveryAndResetClosingMark
  constructor
  · intro s b running faulted g
    refine ⟨fun timer => ?_, fun attempt => ⟨?_, fun bck bda low => ?_⟩⟩
    · show Host.Outcome.next (s.expireRecovery b) = _
      have timer' : (s.engine b).recoveryTimer.isSome = true := timer
      simp [State.expireRecovery, running, faulted, g, timer']
    · have attempt' : (s.engine b).wire = .attempt := attempt
      show Host.Outcome.next (s.endAttempt b true true) = _
      simp [State.endAttempt, running, faulted, g, attempt']
    · have attempt' : (s.engine b).wire = .attempt := attempt
      have not_both : (bck && bda) = false := by rcases low with rfl | rfl <;> simp
      show Host.Outcome.next (s.endAttempt b bck bda) = _
      simp only [State.endAttempt]
      rw [if_pos (by simp [running, faulted, attempt']), if_neg (by simp [not_both])]
      rfl
  · intro s b running mark g active
    have ends : exec (.resetClosingMarkEnd b) s =
        .next (match g.state with
          | .exchange | .recovery =>
            if g.config.enabled && !g.disablePending then s.setEngine b { g with state := .idle }
            else (s.setEngine b g).carryOutDisable b
          | .disabled | .idle | .retryWait | .faulted => s.setEngine b g) := by
      show Host.Outcome.next (s.endClosingMark b) = _
      simp only [State.endClosingMark, running, mark, State.setEngine_setEngine]
      rfl
    rw [ends]
    refine ⟨fun rest => ?_, fun is enabled staying => ?_, fun is off => ?_, fun bck bda => ?_⟩
    · rcases rest with hs | hs <;> rw [hs]
    · rcases is with hs | hs <;> rw [hs] <;> simp [enabled, staying]
    · have leaves : (g.config.enabled && !g.disablePending) = false := by rcases off with h | h <;> simp [h]
      have disabled : (s.setEngine b g).carryOutDisable b = ((s.setEngine b g).flushBranch b .branchDown).setEngine b
          { g with
            queue := [], state := .disabled, disablePending := false, retryTimer := none, recoveryTimer := none,
            copy := none } := by
        rw [State.carryOutDisable_eq, State.setEngine_engine_self]
        rfl
      rcases is with hs | hs <;> rw [hs] <;> simp [leaves, disabled]
    · show Host.Outcome.next (s.takeItem b bck bda) = _
      simp [State.takeItem, State.canTake, mark]

/-! ### The end of an exchange -/

/-- Settles O36: the result of the try, the completion test, and what becomes of the engine. -/
theorem endedItemSettlesItsEntryAndItsEngine : Obligations.EndedItemSettlesItsEntryAndItsEngine := by
  unfold Obligations.EndedItemSettlesItsEntryAndItsEngine
  refine ⟨fun s b bck bda it m answer running state served member => ?_, fun s it m st o member how working => ?_,
    fun s b => ⟨State.endItem_of_staying, State.endItem_of_disablePending⟩⟩
  · intro writes ends
    have ended {result : TryResult} (h : (s.entry it.entry).tryResult m answer = result) :
        exec (.exchangeEnd b answer bck bda) s = .next (s.endTry b it result bck bda) := by
      rw [State.exec_exchangeEnd running state served member, h]
    have status {cell : Byte} {more : List Byte} (h : writes) (sent : answer = .cells (cell :: more)) :
        (s.entry it.entry).tryResult m answer = statusResult cell := by
      rw [sent, Entry.tryResult_of_writes (Entry.reads_of_writes h)]
      rfl
    have kind {k : Kind} (h : (s.entry it.entry).kind = k.code) : Kind.ofCode (s.entry it.entry).kind = some k :=
      (Kind.ofCode_eq_some_iff _ k).mpr h
    refine ⟨fun h => ended (result := .noDevice) (by rw [h]; rfl), fun h => ended (result := .rejected) (by rw [h]; rfl),
      fun more h sent => ended (result := .rejected) (status h sent),
      fun more h sent => ?_, fun value n isRead length long sent => ?_⟩
    · refine (ended (result := .good []) (status h sent)).trans (congrArg _ ?_)
      rcases h with h | h
      · simp only [State.endTry, State.endItemGood, kind (k := .write) h]
      · simp only [State.endTry, State.endItemGood, kind (k := .writePosted) h]
    · subst long
      refine (ended (result := .good value) ?_).trans (congrArg _ ?_)
      · rw [sent, Entry.tryResult_of_good_read ((Entry.reads_iff _).mpr (.inl isRead)) length]
      · simp only [State.endTry, State.endItemGood, kind (k := .read) isRead]
  · intro e status t
    have working' : (s.entry it.entry).working := working
    have settled : t = (s.setMember it st (some o)).settle it.entry := by
      rcases how with rfl | ⟨rfl, rfl⟩
      · exact if_pos rfl
      · exact if_neg (by decide)
    rw [settled]
    exact State.setMember_settle st (some o) member working'

/-- Settles O35: a DIRECT item ends, and with it its entry. -/
theorem exchangeEndCompletesADirectRequest : Obligations.ExchangeEndCompletesADirectRequest := by
  unfold Obligations.ExchangeEndCompletesADirectRequest
  intro s b c bck bda i m a n running state served staying active members inService posted cancel direct source address length
    e ended
  have member : s.member ⟨i, 0⟩ = some m := by simp [State.member, members]
  have tries (answer : TargetAnswer) :=
    endedItemSettlesItsEntryAndItsEngine.1 s b bck bda ⟨i, 0⟩ m answer running state served member
  have completes (u : State) (data : List Byte) (o : Status) (reply : Reply) (entry : u.entry i = { e with data := data })
      (replaced : ∀ f, u.setEntry i f = s.setEntry i f) (engine : u.engine b = s.engine b)
      (replies : { e with data := data, members := [{ m with state := .finished, outcome := some o }] }.dataReply o = reply) :
      (u.finishMember ⟨i, 0⟩ o).endItem b = ended data o reply := by
    have finished : (u.finishMember ⟨i, 0⟩ o).engine b = s.engine b := by
      rw [State.engine_eq _ _ b (State.finishMember_engines u _ o), engine]
    rw [State.endItem_of_staying (by rwa [finished]), finished,
      State.finishMember_direct (s := u) (reply := reply) (by rw [entry]; exact .inr (.inl active)) (by rw [entry]; exact members)
        (by rw [entry]; exact posted) (by rw [entry]; exact cancel) (by rw [entry]; exact source) (by rw [entry]; exact replies),
      replaced, entry]
  have plain (o : Status) {reply : Reply} := completes s e.data o reply rfl (fun _ => rfl) rfl
  have written (o : Status) (kind : e.kind = 0x02#8) : (s.finishMember ⟨i, 0⟩ o).endItem b = ended e.data o (.write a n []) :=
    plain o ((Entry.dataReply_write (by exact kind) (by exact address) (by exact length) o).trans (by simp [direct, e]))
  refine ⟨fun more kind => ?_, fun more kind => ?_, fun kind => ?_, fun value kind long => ?_⟩
  · rw [(tries _).2.2.2.1 more (.inl kind) rfl, written .ok kind]
  · rw [(tries _).2.2.1 more (.inl kind) rfl, written .rejected kind]
  · rw [(tries _).1 rfl]
    rcases kind with kind | kind
    · rw [plain .noDevice (Entry.dataReply_read (by exact kind) (by exact address) (by exact length) _), if_pos kind]
      rfl
    · rw [written .noDevice kind, if_neg (by rw [kind]; decide)]
  · rw [(tries _).2.2.2.2 value n kind length long rfl]
    refine congrArg _ (completes _ value .ok _ (State.setEntry_entry_self ..) (fun f => State.setEntry_setEntry ..) rfl ?_)
    exact Entry.dataReply_read (by exact kind) (by exact address) (by exact length) _

/-- Settles O37: the result of the try, its limit, and the repeat. -/
theorem busyAndCheckFailureAreRepeatedOrEnd : Obligations.BusyAndCheckFailureAreRepeatedOrEnd := by
  unfold Obligations.BusyAndCheckFailureAreRepeatedOrEnd
  intro s b bck bda it m copy answer running state served hasCopy member g e writes reads n lead cell busy failed last again
  have ended {result : TryResult} (h : e.tryResult m answer = result) :
      exec (.exchangeEnd b answer bck bda) s = .next (s.endTry b it result bck bda) := by
    rw [State.exec_exchangeEnd running state served member, h]
  have copies : (s.engine b).copy.getD (s.engine b).config = copy := by
    rw [hasCopy]
    rfl
  have noRepeat : s.noRepeat b it = true ↔ last := by simp [State.noRepeat, last, e, g]
  have repeats {k : Engine} (hk : k = { s.engine b with busyUsed := k.busyUsed, checkUsed := k.checkUsed }) :
      (s.setEngine b k).beginTry b bck bda = again k.busyUsed k.checkUsed := by
    rw [hk]
    have served' : ((s.setEngine b { s.engine b with busyUsed := k.busyUsed, checkUsed := k.checkUsed }).engine b).inService =
        some it := by rwa [State.setEngine_engine_self]
    rw [State.beginTry_of_served served' member, State.setEngine_engine_self, State.setEngine_setEngine]
    rfl
  have isBusy (h : busy) : e.tryResult m answer = .busy := by
    rcases h with h | ⟨isWrite, more, sent⟩
    · rw [h]
      rfl
    · rw [sent, Entry.tryResult_of_writes (Entry.reads_of_writes isWrite)]
      rfl
  have isFailed (h : failed) : e.tryResult m answer = .checkFailure := by
    obtain ⟨sent, rfl, ⟨isWrite, notOk, notBusy, notRejected⟩ | ⟨isRead, disagrees⟩⟩ := h
    · rw [Entry.tryResult_of_writes (Entry.reads_of_writes isWrite), statusResult]
      exact (if_neg notOk).trans ((if_neg notBusy).trans (if_neg notRejected))
    · rw [Entry.tryResult_of_reads ((Entry.reads_iff e).mpr isRead)]
      exact if_neg disagrees
  refine ⟨fun h more below => ?_, fun h more below => ?_, fun h stops => ?_, fun h stops => ?_⟩
  · rw [ended (isBusy h), State.endTry, State.busyEnd]
    have goesOn : (!s.noRepeat b it && decide ((s.engine b).busyUsed < copy.busyLimit)) = true := by
      simpa [← noRepeat] using ⟨Bool.eq_false_iff.mpr (mt noRepeat.mp more), below⟩
    simp only [copies]
    rw [if_pos goesOn]
    split
    · exact congrArg _ (repeats rfl)
    · rfl
  · rw [ended (isFailed h), State.endTry, State.checkEnd]
    have goesOn : (!s.noRepeat b it && decide ((s.engine b).checkUsed < copy.checkLimit)) = true := by
      simpa using ⟨Bool.eq_false_iff.mpr (mt noRepeat.mp more), below⟩
    simp only [copies]
    rw [if_pos goesOn]
    exact congrArg _ (repeats rfl)
  · rw [ended (isBusy h), State.endTry, State.busyEnd]
    simp only [copies]
    rw [if_neg]
    · rfl
    · simp only [Bool.and_eq_true, Bool.not_eq_true', decide_eq_true_eq, not_and, not_lt]
      intro stays
      exact stops.resolve_left fun h => absurd (noRepeat.mpr h) (by simp [stays])
  · rw [ended (isFailed h), State.endTry, State.checkEnd]
    simp only [copies]
    rw [if_neg]
    · rfl
    · simp only [Bool.and_eq_true, Bool.not_eq_true', decide_eq_true_eq, not_and, not_lt]
      intro stays
      exact stops.resolve_left fun h => absurd (noRepeat.mpr h) (by simp [stays])

end Sys2Proof.Machine
end

section
/-! PROOFS. What a flush and a fault make of the entries of a branch. -/

namespace Sys2Proof.Machine

/-! ### An entry after a member of it has finished -/

/-- An entry after the completion test. -/
def Entry.settled (e : Entry) : Entry :=
  match e.state with
  | .queued | .active | .waiting =>
    if e.unfinished then e
    else if e.posted then Entry.free
    else { e with state := .complete, status := some e.decidedStatus, reply := e.dataReply e.decidedStatus }
  | .free | .held | .complete | .sending => e

theorem State.settle_entry_self (s : State) (i : EntryId) : (s.settle i).entry i = (s.entry i).settled := by
  have finished (used : (s.entry i).inUse = true) : (s.finishEntry i).entry i =
      if (s.entry i).posted then Entry.free
      else { s.entry i with
        state := .complete, status := some (s.entry i).decidedStatus
        reply := (s.entry i).dataReply (s.entry i).decidedStatus } := by
    have freed : (s.freeEntry i).entry i = Entry.free := by rw [State.freeEntry_entry s i i used, if_pos rfl]
    simp only [State.finishEntry]
    split
    · simp only [State.endPosted]
      split
      · exact freed
      · exact freed
    · rw [State.completeEntry_entry, if_pos rfl]
  simp only [State.settle, Entry.settled]
  cases hs : (s.entry i).state <;> simp only
  case queued | active | waiting =>
    split
    · rfl
    · exact finished (by simp [Entry.inUse, hs])

theorem Entry.settled_of_unfinished {e : Entry} (h : e.unfinished = true) : e.settled = e := by
  unfold Entry.settled
  cases e.state <;> simp [h]

theorem Entry.settled_of_finished {e : Entry} (working : e.working) (h : e.unfinished = false) :
    e.settled = if e.posted then Entry.free
      else { e with state := .complete, status := some e.decidedStatus, reply := e.dataReply e.decidedStatus } := by
  unfold Entry.settled
  rcases working with hs | hs | hs <;> simp [hs, h]

/-- An entry after a member of it has finished with an outcome, and the completion test after it. -/
def Entry.afterFinish (e : Entry) (k : Nat) (o : Status) : Entry := (e.setMember k .finished (some o)).settled

theorem State.finishMember_entry_self (s : State) (it : Item) (o : Status) :
    (s.finishMember it o).entry it.entry = (s.entry it.entry).afterFinish it.member o := by
  rw [State.finishMember, State.settle_entry_self, State.setMember, State.setEntry_entry_self]
  rfl

/-- A member that finishes is kept with its outcome, unless its entry was a posted write that this completes. -/
theorem Entry.afterFinish_member {e : Entry} {k : Nat} {m : Member} (o : Status) (member : e.members[k]? = some m)
    (working : e.working) :
    (e.afterFinish k o).members[k]? = some { m with state := .finished, outcome := some o } ∨
      (e.posted = true ∧ e.afterFinish k o = Entry.free) := by
  have kept := e.setMember_getElem?_self .finished (some o) member
  unfold Entry.afterFinish
  cases left : (e.setMember k .finished (some o)).unfinished with
  | true => exact .inl (by rwa [Entry.settled_of_unfinished left])
  | false =>
    rw [Entry.settled_of_finished (by exact working) left]
    cases posted : e.posted with
    | true => exact .inr ⟨rfl, if_pos posted⟩
    | false => exact .inl (by rwa [if_neg (by exact Bool.eq_false_iff.mp posted)])

/-- A watch that no CANCEL has marked completes with the outcome and its last value (R34, R106). -/
theorem Entry.afterFinish_watch {e : Entry} {m : Member} {a : Half} {n : Nat} {w : WatchRecord} (o : Status) (working : e.working)
    (kind : e.kind = 0x04#8) (posted : e.posted = false) (cancel : e.cancelRequested = false) (members : e.members = [m])
    (address : e.address = some a) (length : e.length = some n) (watch : e.watch = some w) :
    e.afterFinish 0 o = { e with
      state := .complete, members := [{ m with state := .finished, outcome := some o }], status := some o,
      reply := .watch a n w.last } := by
  have set : e.setMember 0 .finished (some o) = { e with members := [{ m with state := .finished, outcome := some o }] } := by
    simp [Entry.setMember, members]
  have decided : { e with members := [{ m with state := .finished, outcome := some o }] }.decidedStatus = o := by
    simp [Entry.decidedStatus, Entry.outcomes, combinedStatus, cancel]
  rw [Entry.afterFinish, set, Entry.settled_of_finished (by exact working) (by simp [Entry.unfinished, Member.unfinished]),
    if_neg (by exact Bool.eq_false_iff.mp posted), decided,
    Entry.dataReply_watch (by exact kind) (by exact address) (by exact length), watch]
  rfl

/-! ### Items that finish one after the other -/

section FinishAll

variable {s : State} {o : Status}

theorem State.finishAll_cons (s : State) (it : Item) (l : List Item) (o : Status) :
    s.finishAll (it :: l) o = (s.finishMember it o).finishAll l o := rfl

theorem State.finishAll_entry_ne {j : EntryId} {l : List Item} (h : ∀ it ∈ l, it.entry ≠ j) :
    (s.finishAll l o).entry j = s.entry j := State.foldl_finishMember_entry_ne o l s h

/-- The entry of an item that is alone in its entry finishes as it would alone. -/
theorem State.finishAll_entry {it : Item} {l : List Item} (mem : it ∈ l) (once : l.countP (fun x => x.entry == it.entry) = 1) :
    (s.finishAll l o).entry it.entry = (s.entry it.entry).afterFinish it.member o := by
  induction l generalizing s with
  | nil => simp at mem
  | cons x l ih =>
    rw [State.finishAll_cons]
    by_cases same : x.entry = it.entry
    · rw [List.countP_cons_of_pos (by simp [same])] at once
      have others : ∀ y ∈ l, y.entry ≠ it.entry := fun y hy => by
        simpa using List.countP_eq_zero.mp (Nat.succ.inj once) y hy
      have here : it = x := (List.mem_cons.mp mem).resolve_right fun hit => others it hit rfl
      rw [State.finishAll_entry_ne others, here, State.finishMember_entry_self]
    · rw [List.countP_cons_of_neg (by simp [same])] at once
      have later : it ∈ l := (List.mem_cons.mp mem).resolve_left fun h => same (h ▸ rfl)
      rw [ih later once, State.finishMember_entry_ne s o (Ne.symm same)]

theorem countP_entry_eq_one {l : List Item} (nodup : (l.map (·.entry)).Nodup) {it : Item} (mem : it ∈ l) :
    l.countP (fun x => x.entry == it.entry) = 1 := by
  have once := List.count_eq_one_of_mem nodup (List.mem_map_of_mem (f := (·.entry)) mem)
  rwa [List.count, List.countP_map] at once

theorem Entry.settled_unposted {e : Entry} (h : e.posted = false) :
    e.settled.posted = false ∧ e.settled.members = e.members := by
  unfold Entry.settled
  split
  any_goals exact ⟨h, rfl⟩
  all_goals
    split
    · exact ⟨h, rfl⟩
    · rw [if_neg (by simp [h])]
      exact ⟨h, rfl⟩

theorem State.settle_notices {i : EntryId} (h : (s.entry i).posted = false) : (s.settle i).notices = s.notices := by
  have finished : (s.finishEntry i).notices = s.notices := by
    rw [State.finishEntry, if_neg (by simp [h])]
    rfl
  simp only [State.settle]
  split
  · split
    · rfl
    · exact finished
  · split
    · rfl
    · exact finished
  · split
    · rfl
    · exact finished
  all_goals rfl

/-- While no entry is a posted write, an item that finishes hands no notice and leaves every member on its branch. -/
theorem State.finishMember_unposted (it : Item) (o : Status) (unposted : ∀ i, (s.entry i).posted = false) :
    (s.finishMember it o).notices = s.notices ∧
      ∀ i, ((s.finishMember it o).entry i).posted = false ∧
        ((s.finishMember it o).entry i).members.map (·.branch) = (s.entry i).members.map (·.branch) := by
  refine ⟨State.settle_notices (by rw [State.setMember, State.setEntry_entry_self]; exact unposted _), fun i => ?_⟩
  by_cases same : i = it.entry
  · rw [same, State.finishMember_entry_self]
    obtain ⟨posted, members⟩ := ((s.entry it.entry).setMember it.member .finished (some o)).settled_unposted (unposted _)
    exact ⟨posted, by rw [Entry.afterFinish, members, Entry.setMember_branches]⟩
  · rw [State.finishMember_entry_ne s o same]
    exact ⟨unposted i, rfl⟩

theorem State.finishAll_unposted {l : List Item} (o : Status) (unposted : ∀ i, (s.entry i).posted = false) :
    (s.finishAll l o).notices = s.notices ∧
      ∀ i, ((s.finishAll l o).entry i).posted = false ∧
        ((s.finishAll l o).entry i).members.map (·.branch) = (s.entry i).members.map (·.branch) := by
  induction l generalizing s with
  | nil => exact ⟨rfl, fun i => ⟨unposted i, rfl⟩⟩
  | cons x l ih =>
    obtain ⟨notices, entries⟩ := State.finishMember_unposted x o unposted
    obtain ⟨notices', entries'⟩ := ih fun i => (entries i).1
    exact ⟨notices'.trans notices, fun i => ⟨(entries' i).1, (entries' i).2.trans (entries i).2⟩⟩

/-- Items that are the only members of entries of one source, none of them posted, join it in their order (R31, R34). -/
theorem State.finishAll_joins {b : BranchId} {l : List Item} (nodup : (l.map (·.entry)).Nodup)
    (h : ∀ it ∈ l, (s.entry it.entry).working ∧ (s.entry it.entry).members.length = 1 ∧ it.member = 0 ∧
      (s.entry it.entry).posted = false ∧ (s.entry it.entry).source = .branch b) :
    (s.finishAll l o).sourceQueue (.branch b) = s.sourceQueue (.branch b) ++ l.map (·.entry) := by
  induction l generalizing s with
  | nil => simp [State.finishAll]
  | cons x l ih =>
    obtain ⟨working, only, first, posted, source⟩ := h x List.mem_cons_self
    obtain ⟨m, members⟩ := List.length_eq_one_iff.mp only
    obtain ⟨apart, nodup⟩ := List.nodup_cons.mp nodup
    have joined : (s.finishMember x o).sourceQueue (.branch b) = s.sourceQueue (.branch b) ++ [x.entry] := by
      have item : x = ⟨x.entry, 0⟩ := by rw [← first]
      rw [item, State.finishMember_only working members posted, source]
      exact (State.join_sourceQueue (s.setEntry x.entry _) (.branch b) (.branch b) x.entry).trans (if_pos ⟨rfl, nofun⟩)
    rw [State.finishAll_cons, ih nodup, joined, List.map_cons, List.append_assoc]
    · rfl
    · intro it mem
      have other : it.entry ≠ x.entry := fun same => apart (List.mem_map.mpr ⟨it, mem, same⟩)
      rw [State.finishMember_entry_ne s o other]
      exact h it (List.mem_cons_of_mem x mem)

end FinishAll

/-! ### The work of a branch -/

section Branch

variable {s : State} {b : BranchId} {o : Status}

theorem State.mem_watchItems {it : Item} :
    it ∈ s.watchItems b ↔ ∃ x ∈ s.timers, s.timerOn b x = true ∧ it = ⟨x.entry, 0⟩ := by
  rw [State.watchItems, List.mem_map]
  refine ⟨fun ⟨x, mem, same⟩ => ⟨x, (List.mem_filter.mp mem).1, (List.mem_filter.mp mem).2, same.symm⟩,
    fun ⟨x, mem, on, same⟩ => ⟨x, List.mem_filter.mpr ⟨mem, on⟩, same.symm⟩⟩

/-- The timer of a watch lies on the branch of the first member of its entry. -/
theorem State.timerOn_eq (s : State) (b : BranchId) (x : WatchTimer) :
    s.timerOn b x = (((s.entry x.entry).members.map (·.branch))[0]? == some b) := by
  rw [State.timerOn, State.member, List.getElem?_map]
  cases (s.entry x.entry).members[0]? with
  | none => rfl
  | some m => simp

theorem State.flushBranch_entry_untouched {j : EntryId} (h : ∀ it ∈ (s.engine b).queue ++ s.watchItems b, it.entry ≠ j) :
    (s.flushBranch b o).entry j = s.entry j := by
  rw [State.flushBranch_eq, State.setEngine_entry, State.endWork, State.finishAll_entry_ne h]
  rfl

theorem State.flushBranch_entry_of_once {it : Item} (mem : it ∈ (s.engine b).queue ++ s.watchItems b)
    (once : ((s.engine b).queue ++ s.watchItems b).countP (fun x => x.entry == it.entry) = 1) :
    (s.flushBranch b o).entry it.entry = (s.entry it.entry).afterFinish it.member o := by
  rw [State.flushBranch_eq, State.setEngine_entry, State.endWork, State.finishAll_entry mem once]
  rfl

theorem State.Placed.timer_waiting (h : s.Placed) {x : WatchTimer} (mem : x ∈ s.timers) : (s.entry x.entry).state = .waiting :=
  (h.timer x.entry).mp (List.mem_map_of_mem mem)

theorem State.Placed.watchItems_waiting (h : s.Placed) {it : Item} (mem : it ∈ s.watchItems b) :
    (s.entry it.entry).state = .waiting := by
  obtain ⟨x, timer, -, rfl⟩ := State.mem_watchItems.mp mem
  exact h.timer_waiting timer

theorem State.Placed.queue_not_waiting (h : s.Placed) {it : Item} (mem : it ∈ (s.engine b).queue) :
    (s.entry it.entry).state ≠ .waiting := by
  obtain ⟨state | state, -⟩ := h.queued b it mem <;> rw [state] <;> decide

/-- The items in service, queued and waiting of one branch belong to different entries. -/
theorem State.Placed.work_nodup (h : s.Placed) (b : BranchId) :
    (((s.engine b).inService.toList ++ ((s.engine b).queue ++ s.watchItems b)).map (·.entry)).Nodup := by
  have watches : ((s.watchItems b).map (·.entry)).Nodup := by
    rw [State.watchItems, List.map_map]
    exact h.timerOnce.sublist (List.filter_sublist.map _)
  have queued : (((s.engine b).queue ++ s.watchItems b).map (·.entry)).Nodup := by
    rw [List.map_append, List.nodup_append]
    refine ⟨h.queuedOnce b, watches, fun j hj k hk same => ?_⟩
    obtain ⟨it, mem, rfl⟩ := List.mem_map.mp hj
    obtain ⟨x, timer, rfl⟩ := List.mem_map.mp hk
    exact h.queue_not_waiting mem (same ▸ h.watchItems_waiting timer)
  cases served : (s.engine b).inService with
  | none => exact queued
  | some it =>
    refine List.nodup_cons.mpr ⟨fun mem => ?_, queued⟩
    obtain ⟨active, m, member, branch, inService⟩ := h.served b it served
    obtain ⟨x, work, same⟩ := List.mem_map.mp mem
    have work : x ∈ (s.engine b).queue ++ s.watchItems b := work
    rcases List.mem_append.mp work with queue | watch
    · obtain ⟨-, m', member', branch', pending⟩ := h.queued b x queue
      rw [State.member, show x.entry = it.entry from same] at member'
      have one : m = m' := List.inj_on_of_nodup_map (h.branches it.entry) (List.mem_of_getElem? member)
        (List.mem_of_getElem? member') (branch.trans branch'.symm)
      rw [one, pending] at inService
      cases inService
    · have waits := h.watchItems_waiting watch
      rw [show x.entry = it.entry from same, active] at waits
      cases waits

theorem State.Placed.flush_nodup (h : s.Placed) (b : BranchId) :
    (((s.engine b).queue ++ s.watchItems b).map (·.entry)).Nodup :=
  List.Nodup.sublist ((List.sublist_append_right _ _).map _) (h.work_nodup b)

end Branch

/-- Settles O30: a flush is the items of the queue and the waiting watches finishing one after the other. -/
theorem flushEndsQueueAndWaitingWatches : Obligations.FlushEndsQueueAndWaitingWatches := by
  unfold Obligations.FlushEndsQueueAndWaitingWatches
  constructor
  · intro s b o t
    refine ⟨?_, State.flushBranch_timers s b o, fun c other => ?_, fun it m mem member once apart works => ?_⟩
    · rw [State.flushBranch_engine, if_pos rfl]
    · exact (State.flushBranch_engine s b c o).trans (if_neg other)
    · have unwatched : (s.watchItems b).countP (fun x => x.entry == it.entry) = 0 := by
        refine List.countP_eq_zero.mpr fun x hx => ?_
        obtain ⟨y, timer, -, rfl⟩ := State.mem_watchItems.mp hx
        simpa using apart y timer
      have entry : t.entry it.entry = (s.entry it.entry).afterFinish it.member o :=
        State.flushBranch_entry_of_once (List.mem_append_left _ mem) (by rw [List.countP_append, once, unwatched])
      have working : (s.entry it.entry).working := works.elim .inl (.inr ∘ .inl)
      rw [State.member, entry]
      exact Entry.afterFinish_member o member working
  · intro s b o placed items watches t
    constructor
    · intro x m a n w mem e kind posted cancel members address length watch
      obtain ⟨timer, on⟩ := List.mem_filter.mp mem
      have work : (⟨x.entry, 0⟩ : Item) ∈ (s.engine b).queue ++ s.watchItems b :=
        List.mem_append_right _ (State.mem_watchItems.mpr ⟨x, timer, on, rfl⟩)
      have entry : t.entry x.entry = (s.entry x.entry).afterFinish 0 o :=
        State.flushBranch_entry_of_once work (countP_entry_eq_one (placed.flush_nodup b) work)
      rw [entry]
      exact Entry.afterFinish_watch o (.inr (.inr (placed.timer_waiting timer))) kind posted cancel members address length watch
    · intro queued waiting
      have joined := State.finishAll_joins (s := s.setTimers (s.timers.filter (fun t => !s.timerOn b t))) (o := o) (b := b)
        (placed.flush_nodup b) ?_
      · have same : t.sourceQueue (.branch b) = (s.endWork b (s.engine b).queue o).sourceQueue (.branch b) := by
          show (s.flushBranch b o).sourceQueue _ = _
          rw [State.flushBranch_eq]
          rfl
        rw [same, State.endWork, joined, List.map_append, State.watchItems, List.map_map, List.append_assoc]
        rfl
      · intro it work
        show (s.entry it.entry).working ∧ (s.entry it.entry).members.length = 1 ∧ it.member = 0 ∧
          (s.entry it.entry).posted = false ∧ (s.entry it.entry).source = .branch b
        rcases List.mem_append.mp work with mem | mem
        · obtain ⟨posted, only, source⟩ := queued it mem
          obtain ⟨works, m, member, -⟩ := placed.queued b it mem
          have first : it.member < 1 := only ▸ (List.getElem?_eq_some_iff.mp member).1
          exact ⟨works.elim .inl (.inr ∘ .inl), only, by omega, posted, source⟩
        · obtain ⟨x, timer, on, rfl⟩ := State.mem_watchItems.mp mem
          obtain ⟨posted, source⟩ := waiting x (List.mem_filter.mpr ⟨timer, on⟩)
          have waits := placed.timer_waiting timer
          obtain ⟨m, members, -⟩ := placed.waiting x.entry waits
          exact ⟨.inr (.inr waits), by rw [members]; rfl, rfl, posted, source⟩

/-! ### A fault -/

section Fault

variable {s : State} {b : BranchId} {reason : BranchReason}

/-- A state whose engine has lost its item in service, which ends with BRANCH_FAULT. -/
def State.faulted (s : State) (b : BranchId) (reason : BranchReason) : State :=
  (s.finishAll (s.engine b).inService.toList .branchFault).setEngine b { s.engine b with lastFault := reason, inService := none }

theorem State.faulted_eq (s : State) (b : BranchId) (reason : BranchReason) :
    (match (s.engine b).inService with
      | some it => (s.setEngine b { s.engine b with lastFault := reason, inService := none }).finishMember it .branchFault
      | none => s.setEngine b { s.engine b with lastFault := reason }) = s.faulted b reason := by
  unfold State.faulted
  cases served : (s.engine b).inService with
  | some it => exact State.finishMember_setEngine s b _ it .branchFault
  | none =>
    have kept : ({ s.engine b with lastFault := reason, inService := none } : Engine) =
        { s.engine b with lastFault := reason } := by rw [← served]
    rw [kept]
    rfl

theorem State.fault_eq (s : State) (b : BranchId) (reason : BranchReason) :
    s.fault b reason =
      (((s.faulted b reason).flushBranch b .branchFault).hand (.branchState b .faulted reason)).setEngine b
        { s.engine b with
          lastFault := reason, state := if (s.engine b).disablePending then .disabled else .faulted
          disablePending := false, inService := none, queue := [], retryTimer := none, copy := none, wire := .released
          recoveryTimer := if (s.engine b).disablePending then none else some 115200000 } := by
  have dismissed : (s.setEngine b { s.engine b with lastFault := reason }).dismiss b .branchFault = s.faulted b reason := by
    rw [← State.faulted_eq]
    simp only [State.dismiss, State.setEngine_engine_self, State.setEngine_setEngine]
    cases (s.engine b).inService <;> rfl
  have engine : (s.faulted b reason).engine b = { s.engine b with lastFault := reason, inService := none } :=
    State.setEngine_engine_self ..
  rw [State.fault]
  simp only [dismissed, State.hand_engine, State.flushBranch_engine, if_true, engine]
  cases pending : (s.engine b).disablePending <;> simp [Engine.afterFault, Config.recoveryUnits, Config.unitsPerMs]

theorem State.faulted_entry (j : EntryId) :
    (s.faulted b reason).entry j = (s.finishAll (s.engine b).inService.toList .branchFault).entry j := rfl

theorem State.faulted_timers : (s.faulted b reason).timers = s.timers := State.finishAll_timers ..

theorem State.faulted_queue : ((s.faulted b reason).engine b).queue = (s.engine b).queue := by
  rw [State.faulted, State.setEngine_engine_self]

/-- On a placed branch the item in service does not belong to what a timer or a queued item stands for. -/
theorem State.Placed.faulted_entry (h : s.Placed) {it : Item} (mem : it ∈ (s.engine b).queue ++ s.watchItems b) :
    (s.faulted b reason).entry it.entry = s.entry it.entry := by
  refine State.finishAll_entry_ne fun x hx same => ?_
  have nodup := h.work_nodup b
  rw [List.map_append, List.nodup_append] at nodup
  exact nodup.2.2 x.entry (List.mem_map_of_mem hx) it.entry (List.mem_map_of_mem mem) same

theorem State.Placed.faulted_timerOn (h : s.Placed) {x : WatchTimer} (timer : x ∈ s.timers) :
    (s.faulted b reason).timerOn b x = s.timerOn b x := by
  have kept : (s.faulted b reason).entry x.entry = s.entry x.entry := by
    refine State.finishAll_entry_ne fun it hi same => ?_
    have served := (h.served b it (Option.mem_toList.mp hi)).1
    rw [same, h.timer_waiting timer] at served
    cases served
  rw [State.timerOn_eq, State.timerOn_eq, kept]

theorem State.watchItems_congr {t : State} (timers : t.timers = s.timers)
    (on : ∀ x ∈ s.timers, t.timerOn b x = s.timerOn b x) : t.watchItems b = s.watchItems b := by
  rw [State.watchItems, State.watchItems, timers, List.filter_congr on]

/-- Every entry at work on a placed branch ends as the end of its item there leaves it. -/
theorem State.Placed.fault_entry (h : s.Placed) {it : Item}
    (mem : it ∈ (s.engine b).inService.toList ++ ((s.engine b).queue ++ s.watchItems b)) :
    (s.fault b reason).entry it.entry = (s.entry it.entry).afterFinish it.member .branchFault := by
  have watches : (s.faulted b reason).watchItems b = s.watchItems b :=
    State.watchItems_congr State.faulted_timers fun x timer => h.faulted_timerOn timer
  have work : ((s.faulted b reason).engine b).queue ++ (s.faulted b reason).watchItems b =
      (s.engine b).queue ++ s.watchItems b := by rw [State.faulted_queue, watches]
  have same : (s.fault b reason).entry it.entry = ((s.faulted b reason).flushBranch b .branchFault).entry it.entry := by
    rw [State.fault_eq]
    rfl
  rw [same]
  rcases List.mem_append.mp mem with served | mem
  · have apart : ∀ x ∈ (s.engine b).queue ++ s.watchItems b, x.entry ≠ it.entry := fun x hx same => by
      have nodup := h.work_nodup b
      rw [List.map_append, List.nodup_append] at nodup
      exact nodup.2.2 it.entry (List.mem_map_of_mem served) x.entry (List.mem_map_of_mem hx) same.symm
    rw [State.flushBranch_entry_untouched (by rwa [work]), State.faulted_entry]
    refine State.finishAll_entry served (countP_entry_eq_one ?_ served)
    exact List.Nodup.sublist ((List.sublist_append_left _ _).map _) (h.work_nodup b)
  · rw [State.flushBranch_entry_of_once (by rwa [work]) (by rw [work]; exact countP_entry_eq_one (h.flush_nodup b) mem),
      h.faulted_entry mem]

end Fault

/-- Settles O42: the item in service, then the flush. -/
theorem failedRecoveryFaultsTheBranch : Obligations.FailedRecoveryFaultsTheBranch := by
  unfold Obligations.FailedRecoveryFaultsTheBranch
  intro s b cause bck bda running recovering wire low reason g ended t
  have reasons : cause.reason = reason := by cases cause <;> rfl
  have faulted : ended = s.faulted b reason := s.faulted_eq b reason
  have same : s.fault b reason = t := by
    rw [State.fault_eq, ← faulted]
  have timers : t.timers = (s.faulted b reason).timers.filter (fun x => !(s.faulted b reason).timerOn b x) := by
    rw [← same, State.fault_eq]
    exact State.flushBranch_timers ..
  have timersOf (on : ∀ x ∈ s.timers, (s.faulted b reason).timerOn b x = s.timerOn b x) :
      t.timers = s.timers.filter (fun x => !s.timerOn b x) := by
    rw [timers, State.faulted_timers]
    exact List.filter_congr fun x hx => by rw [on x hx]
  refine ⟨?_, fun c other => ?_, fun unposted => ?_, fun placed => ?_⟩
  · show Host.Outcome.next (s.endRecovery b bck bda) = _
    rw [State.endRecovery_fails running recovering wire low, reasons, same]
  · rw [← same, State.fault_engine, if_neg other]
  · obtain ⟨notices, entries⟩ := State.finishAll_unposted (l := (s.engine b).inService.toList) .branchFault unposted
    refine ⟨?_, timersOf fun x _ => ?_⟩
    · obtain ⟨flushed, -⟩ := State.finishAll_unposted
        (s := (s.faulted b reason).setTimers ((s.faulted b reason).timers.filter fun x => !(s.faulted b reason).timerOn b x))
        (l := ((s.faulted b reason).engine b).queue ++ (s.faulted b reason).watchItems b) .branchFault fun i => (entries i).1
      have handed : t.notices = ((s.faulted b reason).flushBranch b .branchFault).notices.hand (.branchState b .faulted reason) := by
        rw [← same, State.fault_eq]
        rfl
      rw [handed, State.flushBranch_eq]
      exact congrArg (NoticeUnit.hand · _) (flushed.trans notices)
    · rw [State.timerOn_eq, State.timerOn_eq]
      exact congrArg (fun l : List BranchId => l[0]? == some b) (entries x.entry).2
  · refine ⟨timersOf fun x timer => placed.faulted_timerOn timer, fun it m work member => ?_, ?_⟩
    · have mem : it ∈ (s.engine b).inService.toList ++ ((s.engine b).queue ++ s.watchItems b) := by
        rcases work with served | queued
        · exact List.mem_append_left _ (Option.mem_toList.mpr served)
        · exact List.mem_append_right _ (List.mem_append_left _ queued)
      have working : (s.entry it.entry).working := by
        rcases work with served | queued
        · exact .inr (.inl (placed.served b it served).1)
        · exact (placed.queued b it queued).1.elim .inl (.inr ∘ .inl)
      rw [State.member, ← same, placed.fault_entry mem]
      exact Entry.afterFinish_member .branchFault member working
    · intro x m a n w timer on e kind posted cancel members address length watch
      have mem : (⟨x.entry, 0⟩ : Item) ∈ s.watchItems b := State.mem_watchItems.mpr ⟨x, timer, on, rfl⟩
      have entry := placed.fault_entry (reason := reason) (List.mem_append_right _ (List.mem_append_right _ mem))
      rw [← same, show (s.fault b reason).entry x.entry = _ from entry]
      exact Entry.afterFinish_watch .branchFault (.inr (.inr (placed.timer_waiting timer))) kind posted cancel members address
        length watch

end Sys2Proof.Machine
end

section
/-! PROOFS. The reads of a watch, the taking of an item, and what goes over BCK and BDA. -/

namespace Sys2Proof.Machine

/-! ### Watch reads -/

theorem WatchRecord.accepts_iff {w : WatchRecord} {value : List Byte} {n : Nat} (length : value.length = n)
    (mask : w.mask.length = n) (pattern : w.pattern.length = n) :
    w.accepts value = true ↔
      ∀ k, k < n → value.getD k 0#8 &&& w.mask.getD k 0#8 = w.pattern.getD k 0#8 &&& w.mask.getD k 0#8 := by
  rw [WatchRecord.accepts, List.all_eq_true]
  have at_k {k : Nat} (below : k < n) (inside : k < ((w.mask.zip w.pattern).zip value).length) :
      ((w.mask.zip w.pattern).zip value)[k] = ((w.mask.getD k 0#8, w.pattern.getD k 0#8), value.getD k 0#8) := by
    have hv : k < value.length := length ▸ below
    have hm : k < w.mask.length := mask ▸ below
    have hp : k < w.pattern.length := pattern ▸ below
    simp [List.getElem_zip, List.getElem?_eq_getElem hv, List.getElem?_eq_getElem hm, List.getElem?_eq_getElem hp]
  have size : ((w.mask.zip w.pattern).zip value).length = n := by simp [length, mask, pattern]
  constructor
  · intro all k below
    have inside : k < ((w.mask.zip w.pattern).zip value).length := size ▸ below
    have agrees := all _ (List.getElem_mem inside)
    rw [at_k below inside] at agrees
    exact beq_iff_eq.mp agrees
  · intro all x mem
    obtain ⟨k, inside, rfl⟩ := List.getElem_of_mem mem
    rw [at_k (size ▸ inside) inside]
    exact beq_iff_eq.mpr (all k (size ▸ inside))

section Watch

variable {s : State} {i : EntryId} {m : Member} {w : WatchRecord} {value : List Byte}

theorem State.endWatchRead_ends {o : Status} (watch : (s.entry i).watch = some w)
    (ends : w.outcome value (s.entry i).cancelRequested = some o) :
    s.endWatchRead ⟨i, 0⟩ value =
      (s.setEntry i { s.entry i with watch := some (w.after value) }).finishMember ⟨i, 0⟩ o := by
  rw [State.endWatchRead, watch]
  simp only [State.setEntry_entry_self, ends]

theorem State.endWatchRead_waits (watch : (s.entry i).watch = some w) (members : (s.entry i).members = [m])
    (active : (s.entry i).state = .active) (waits : w.outcome value (s.entry i).cancelRequested = none) :
    s.endWatchRead ⟨i, 0⟩ value =
      (s.setEntry i { s.entry i with
        state := .waiting, watch := some (w.after value)
        members := [{ m with state := .pending, outcome := none }] }).placeTimer i w.interval := by
  rw [State.endWatchRead, watch]
  simp only [State.setEntry_entry_self, waits, State.waitAgain, State.setEntry_setEntry, Entry.setMember, active, if_true, members]
  rfl

/-- The watch of an only member ends: its entry completes into its source, CANCELLED where a CANCEL has marked it (R37, R106). -/
theorem State.endWatchRead_completes {o : Status} {a : Half} {n : Nat} {c : BranchId} (watch : (s.entry i).watch = some w)
    (ends : w.outcome value (s.entry i).cancelRequested = some o) (active : (s.entry i).state = .active)
    (members : (s.entry i).members = [m]) (posted : (s.entry i).posted = false) (kind : (s.entry i).kind = 0x04#8)
    (address : (s.entry i).address = some a) (length : (s.entry i).length = some n) (source : (s.entry i).source = .branch c) :
    s.endWatchRead ⟨i, 0⟩ value =
      (s.setEntry i { s.entry i with
        state := .complete, watch := some (w.after value)
        status := some (if (s.entry i).cancelRequested then .cancelled else o), reply := .watch a n (some value)
        members := [{ m with state := .finished, outcome := some o }] }).joinBranch c i := by
  set u := s.setEntry i { s.entry i with watch := some (w.after value) } with hu
  have entry : u.entry i = { s.entry i with watch := some (w.after value) } := State.setEntry_entry_self ..
  have completed := State.finishMember_only (s := u) (m := m) (by rw [entry]; exact .inr (.inl active))
    (by rw [entry]; exact members) (by rw [entry]; exact posted) o
  rw [State.endWatchRead_ends watch ends, show State.finishMember _ _ _ = _ from completed, entry,
    Entry.dataReply_watch (by exact kind) (by exact address) (by exact length), hu, State.setEntry_setEntry]
  exact congrArg (fun src => State.setArbiter _ (s.arbiter.join src i)) source

/-- An engine with a disable pending ends its item while a watch waits on its branch: the watch ends BRANCH_DOWN, and its timer
leaves the list with those of the branch (R89, R90, R105). -/
theorem State.endItem_ends_watch {v : State} {b : BranchId} {f : Entry} {x : WatchTimer} {pre post : List WatchTimer} {a : Half}
    {n : Nat} (placed : v.PlacedBut ∅ (some b)) (pending : (v.engine b).disablePending = true) (entry : v.entry i = f)
    (waits : f.state = .waiting) (members : f.members = [m]) (here : m.branch = b) (kind : f.kind = 0x04#8)
    (posted : f.posted = false) (cancel : f.cancelRequested = false) (address : f.address = some a) (length : f.length = some n)
    (watch : f.watch = some w) (timers : v.timers = pre ++ x :: post) (own : x.entry = i) :
    (v.endItem b).entry i =
        { f with
          state := .complete, members := [{ m with state := .finished, outcome := some .branchDown }],
          status := some .branchDown, reply := .watch a n w.last } ∧
      ((v.endItem b).engine b).state = .disabled ∧ ((v.endItem b).engine b).disablePending = false ∧
      (v.endItem b).timers = (pre ++ post).filter (fun y => !v.timerOn b y) := by
  let u := v.setEngine b { v.engine b with state := .idle, inService := none, copy := none, wire := .released }
  have atRest : u.Placed := u.placed_iff.mpr
    (placed.setEngine_unserved (by exact .refl _) (by exact rfl) fun c hc _ same => hc (Option.some.inj same).symm)
  have on : v.timerOn b x = true := by
    rw [State.timerOn_eq, own, entry, members]
    simpa using here
  have work : (⟨i, 0⟩ : Item) ∈ (u.engine b).queue ++ u.watchItems b :=
    List.mem_append_right _ (State.mem_watchItems.mpr ⟨x, by show x ∈ v.timers; rw [timers]; simp, on, by rw [own]⟩)
  refine ⟨?_, ?_, ?_, ?_⟩
  · have ended : (u.flushBranch b .branchDown).entry i = (v.entry i).afterFinish 0 .branchDown :=
      State.flushBranch_entry_of_once work (countP_entry_eq_one (atRest.flush_nodup b) work)
    rw [State.endItem_of_disablePending pending, State.setEngine_entry, ended, entry]
    exact Entry.afterFinish_watch .branchDown (.inr (.inr waits)) kind posted cancel members address length watch
  · rw [State.endItem_engine, if_pos rfl, if_pos pending]
  · rw [State.endItem_engine, if_pos rfl, if_pos pending]
  · have flushed : (u.flushBranch b .branchDown).timers = v.timers.filter (fun y => !v.timerOn b y) :=
      u.flushBranch_timers b .branchDown
    rw [State.endItem_of_disablePending pending, State.setEngine_timers, flushed, timers, List.filter_append,
      List.filter_cons_of_neg (by simp [on]), List.filter_append]

end Watch

/-- Settles O38: the outcome of the read, the watch that ends, and the watch that waits again. -/
theorem watchReadMatchesEndsOrWaits : Obligations.WatchReadMatchesEndsOrWaits := by
  unfold Obligations.WatchReadMatchesEndsOrWaits
  intro s b c bck bda i m a n w value running state served kind active members inService posted source address length watch
    long mask pattern reads e matched w' complete ended answer
  have member : s.member ⟨i, 0⟩ = some m := by simp [State.member, members]
  have read : exec (.exchangeEnd b answer bck bda) s = .next ((s.endWatchRead ⟨i, 0⟩ value).endItem b) := by
    have good : e.tryResult m answer = .good value := by
      have sent : answer = .cells (value ++
          [crc8 ([(m.device <<< 3) ||| 0b001#8, m.register, Byte.ofCount value.length] ++ value)]) := by rw [long]
      rw [sent, Entry.tryResult_of_good_read ((Entry.reads_iff e).mpr (.inr kind)) (by rw [length, long])]
    rw [State.exec_exchangeEnd running state served member, good]
    simp only [State.endTry, State.endItemGood, (Kind.ofCode_eq_some_iff _ .watch).mpr kind]
  have accepts : w.accepts value = true ↔ matched := WatchRecord.accepts_iff long mask pattern
  have ends {o : Status} (h : w.outcome value e.cancelRequested = some o) :
      exec (.exchangeEnd b answer bck bda) s = .next (ended o (if e.cancelRequested then .cancelled else o)) := by
    rw [read, State.endWatchRead_completes watch h active members posted kind address length source]
    rfl
  have waits (cancel : e.cancelRequested = false) (h : ¬ matched) (more : 1 < w.remaining) :
      s.endWatchRead ⟨i, 0⟩ value = (s.setEntry i
        { e with state := .waiting, watch := some w', members := [{ m with state := .pending, outcome := none }] }).placeTimer i
          w.interval := by
    refine State.endWatchRead_waits watch members active ?_
    have left : w.remaining - 1 ≠ 0 := by omega
    simp [WatchRecord.outcome, Bool.eq_false_iff.mpr (mt accepts.mp h), show (s.entry i).cancelRequested = false from cancel,
      WatchRecord.after, left]
  refine ⟨fun cancel => ?_, fun cancel h => ?_, fun cancel h last => ?_, fun cancel h more => ?_,
    fun cancel h more pending here placed => ?_⟩
  · rw [ends (o := .ok) (by rw [cancel, WatchRecord.outcome_of_cancelled]), if_pos cancel]
  · rw [ends (o := .ok) (by simp [WatchRecord.outcome, accepts.mpr h]), if_neg (by simp [cancel])]
  · rw [ends (o := .limit) (by simp [WatchRecord.outcome, Bool.eq_false_iff.mpr (mt accepts.mp h), cancel, WatchRecord.after, last]),
      if_neg (by simp [cancel])]
  · rw [read, waits cancel h more]
  · rw [read]
    have placed' := s.placed_iff.mp placed
    obtain ⟨outside, -⟩ := placed'.served b ⟨i, 0⟩ (by simp) served
    let f : Entry :=
      { e with state := .waiting, watch := some w', members := [{ m with state := .pending, outcome := none }] }
    obtain ⟨pre, post, split, placedTimer, -⟩ := (s.setEntry i f).placeTimer_split i w.interval
    have again : s.endWatchRead ⟨i, 0⟩ value = (s.setEntry i f).placeTimer i w.interval := waits cancel h more
    have after := (placed'.disregard b).endWatchRead outside (placed'.not_refers_of_served served) active member value
    have entry (j : EntryId) : (s.endWatchRead ⟨i, 0⟩ value).entry j = if j = i then f else s.entry j := by
      rw [again]
      exact State.setEntry_entry ..
    have engine : (s.endWatchRead ⟨i, 0⟩ value).engine b = s.engine b := State.engine_eq _ _ b (State.endWatchRead_engines ..)
    obtain ⟨ended, disabled, cleared, timers⟩ := State.endItem_ends_watch (i := i) (f := f) after (by rwa [engine])
      ((entry i).trans (if_pos rfl)) rfl rfl here kind posted cancel address length rfl
      (by rw [again, placedTimer]) rfl
    refine ⟨_, rfl, ended, disabled, cleared, timers.trans ?_⟩
    have split' : s.timers = pre ++ post := split
    rw [← split']
    refine List.filter_congr fun y hy => ?_
    have apart : y.entry ≠ i := fun same => by
      have waits := placed.timer_waiting hy
      rw [same, active] at waits
      cases waits
    rw [State.timerOn_eq, State.timerOn_eq, entry, if_neg apart]

/-! ### The taking of an item -/

theorem Entry.sentCells_eq (e : Entry) (m : Member) :
    e.sentCells m =
      let reads := e.kind = 0x01#8 ∨ e.kind = 0x04#8
      let lead := [(m.device <<< 3) ||| (if reads then 0b001#8 else 0b010#8), m.register, Byte.ofCount (e.length.getD 0)]
      if reads then lead else lead ++ e.data ++ [crc8 (lead ++ e.data)] := by
  simp only [Entry.sentCells, Entry.leadCells, headerCell, Entry.reads_iff]

theorem State.serveMember_eq {s : State} {it : Item} {m : Member} (member : s.member it = some m) :
    s.serveMember it = s.setEntry it.entry
      { s.entry it.entry with
        state := if (s.entry it.entry).state = .queued then .active else (s.entry it.entry).state
        members := (s.entry it.entry).members.set it.member { m with state := .inService, outcome := none } } := by
  rw [State.serveMember, Entry.setMember_eq_set member]

/-- An IDLE engine whose lines are released takes the head item and begins its first try (R77). -/
theorem State.takeItem_eq {s : State} {b : BranchId} {bck bda : Bool} {it : Item} {rest : List Item} {m : Member}
    (running : s.stopped = false) (idle : (s.engine b).state = .idle) (wire : (s.engine b).wire = .released)
    (queue : (s.engine b).queue = it :: rest) (member : s.member it = some m) :
    s.takeItem b bck bda = (s.serveMember it).setEngine b
      { s.engine b with
        state := if bck = true ∧ bda = true then .exchange else .recovery
        queue := rest, inService := some it, busyUsed := 0, checkUsed := 0, retryTimer := none
        copy := some (s.engine b).config
        wire := if bck = true ∧ bda = true then .exchange ((s.entry it.entry).sentCells m) else .recovery .beforeTry } := by
  have ready : s.canTake b = true := by simp [State.canTake, running, idle, wire, queue]
  let g := { s.engine b with queue := rest, inService := some it, busyUsed := 0, checkUsed := 0 }
  have served : (((s.serveMember it).setEngine b g).engine b).inService = some it := by rw [State.setEngine_engine_self]
  have serves : ((s.serveMember it).setEngine b g).member it = some { m with state := .inService, outcome := none } := by
    rw [State.serveMember_eq member, State.member, State.setEngine_entry, State.setEntry_entry_self]
    simp [(List.getElem?_eq_some_iff.mp member).1]
  have begun : s.takeItem b bck bda = ((s.serveMember it).setEngine b g).beginTry b bck bda := by
    rw [State.takeItem, if_pos ready]
    simp only [queue]
    rfl
  rw [begun, State.beginTry_of_served served serves, State.setEngine_engine_self, State.setEngine_setEngine,
    State.serveMember_eq member, State.setEngine_entry, State.setEntry_entry_self]
  rfl

/-! ### What goes over BCK and BDA -/

theorem cellBits_eq (v : Byte) :
    cellBits v = [v.getLsbD 7, v.getLsbD 6, v.getLsbD 5, v.getLsbD 4, v.getLsbD 3, v.getLsbD 2, v.getLsbD 1, v.getLsbD 0] := by
  simp [cellBits, List.range_succ, BitVec.getMsbD]

theorem receivedBit_map (bits : List Bool) :
    (bits.map (fun bit => if bit then Pull.released else .low)).map receivedBit = bits := by
  rw [List.map_map]
  exact (List.map_congr_left fun bit _ => receivedBit_of_sent bit).trans (List.map_id bits)

/-- Settles O34: the item taken, then the half bit periods of each activity on a branch. -/
theorem engineTakesTheHeadItem : Obligations.EngineTakesTheHeadItem := by
  unfold Obligations.EngineTakesTheHeadItem
  constructor
  · intro s b bck bda it rest m running idle wire queue member e n reads header lead cells
    show Host.Outcome.next (s.takeItem b bck bda) = _
    rw [State.takeItem_eq running idle wire queue member, State.serveMember_eq member, Entry.sentCells_eq]
  · intro both level sent listens bits cell opening closing answer
    have drive (v : Byte) : cellDrive v = cell v := by
      rw [cellDrive, cellBits_eq, List.flatMap_def]
      rfl
    have drives (l : List Byte) : l.flatMap cellDrive = (l.map cell).flatten := by
      rw [List.flatMap_def, funext drive]
    refine ⟨fun header register count rest => ⟨?_, ?_⟩, fun present cause => ⟨rfl, rfl, rfl, rfl⟩, fun values => ⟨?_, fun l => rfl⟩⟩
    · simp only [Wire.drive, exchangeDrive, if_true, drives, drive, List.append_assoc]
      rfl
    · simp only [Wire.drive, exchangeDrive, drive, Bool.false_eq_true, if_false, List.append_nil]
      rfl
    · have levels : (values.map (fun v => (bits v).map level)).flatten.map receivedBit = values.flatMap cellBits := by
        rw [List.map_flatten, List.map_map, List.flatMap_def]
        refine congrArg List.flatten (List.map_congr_left fun v _ => ?_)
        rw [cellBits_eq]
        exact receivedBit_map (bits v)
      rw [answerOnLine, levels, cellsOfBits_cellBits]
      rfl

end Sys2Proof.Machine
end

section
/-! PROOFS. Admission: what taking a head does, by the checks on it; frames that are turned away, and the control requests. -/

namespace Sys2Proof.Machine

/-! ### Taking a head, by its checks -/

/-- The state a head leaves behind for its checks, with the notices and the count of free values that they find. -/
def State.gone (s : State) (fr : Frame) (rest : List Frame) (n : NoticeUnit) (k : Nat) : State :=
  { s.headGone fr rest with notices := n, freeCount := k }

section Take

variable {s : State} {fr : Frame} {rest : List Frame} {i : EntryId} {names : Frame → Bool} {act : State → State}

theorem State.taken_eq_gone (s : State) (fr : Frame) (rest : List Frame) :
    ∃ n k, s.taken fr rest = s.gone fr rest n k := by
  unfold State.taken
  split
  · exact ⟨_, _, rfl⟩
  · exact ⟨_, _, rfl⟩

theorem State.take_of_head (head : s.rx.inbound = fr :: rest) (ready : s.admissible fr.kind = true) (named : names fr = true) :
    s.take names = s.takeHead fr rest := by
  simp [State.take, head, named, ready]

theorem State.takeHead_of_checks (checks : ∀ n k, (s.gone fr rest n k).runChecks fr = act (s.gone fr rest n k)) :
    s.didTaking fr rest act (s.takeHead fr rest) := by
  obtain ⟨n, k, taken⟩ := s.taken_eq_gone fr rest
  rcases s.takeHead_didTaking fr rest with first | ⟨due, last⟩
  · exact .inl (first.trans (by rw [taken]; exact checks n k))
  · exact .inr ⟨due, last.trans (congrArg (State.hand · .credit) (checks s.notices (s.freeCount + 1)))⟩

/-- Where the checks hand no notice, the place of the CREDIT among them does not show (R160). -/
theorem State.takeHead_of_silent (checks : ∀ n k, (s.gone fr rest n k).runChecks fr = act (s.gone fr rest n k))
    (silent : ∀ n k, (act (s.gone fr rest n k)).hand .credit = act ((s.gone fr rest n k).hand .credit)) :
    s.takeHead fr rest = act (s.taken fr rest) := by
  rcases State.takeHead_of_checks checks with first | ⟨due, last⟩
  · exact first
  · rw [last, State.taken, if_pos due]
    exact silent s.notices (s.freeCount + 1)

/-- Where the checks hand one notice and set the entries, the CREDIT stands before it or after it (R160). -/
theorem State.takeHead_of_notice {x : Notice} {entries : Vector Entry 16}
    (checks : ∀ n k, (s.gone fr rest n k).runChecks fr =
      { s.gone fr rest (n.hand x) k with table := { s.table with entries := entries } }) :
    ∃ n, s.noticed fr rest x n ∧
      s.takeHead fr rest = { s.taken fr rest with notices := n, table := { s.table with entries := entries } } := by
  unfold State.noticed
  rcases s.takeHead_didTaking fr rest with first | ⟨due, last⟩
  · rw [first]
    unfold State.taken
    split
    · exact ⟨(s.notices.hand .credit).hand x, .inl rfl, checks (s.notices.hand .credit) (s.freeCount + 1)⟩
    · exact ⟨s.notices.hand x, rfl, checks s.notices s.freeCount⟩
  · refine ⟨(s.notices.hand x).hand .credit, by rw [if_pos due]; exact .inr rfl, ?_⟩
    rw [last, State.taken, if_pos due]
    exact congrArg (State.hand · .credit) (checks s.notices (s.freeCount + 1))

theorem State.Takes.checks_request (h : s.Takes fr rest i) {r : Request} (request : fr.request = some r) (n : NoticeUnit) (k : Nat) :
    (s.gone fr rest n k).runChecks fr = ((s.gone fr rest n k).enter i (fr.record s.routes.generation)).execute i r := by
  rw [h.runChecks_request (u := s.gone fr rest n k) rfl request, State.allocate_eq_enter]
  rfl

theorem State.Takes.takeHead_silent (h : s.Takes fr rest i) {r : Request} (request : fr.request = some r) (named : names fr = true)
    (executes : ∀ n k, ((s.gone fr rest n k).enter i (fr.record s.routes.generation)).execute i r = act (s.gone fr rest n k))
    (silent : ∀ n k, (act (s.gone fr rest n k)).hand .credit = act ((s.gone fr rest n k).hand .credit)) :
    s.take names = act (s.taken fr rest) := by
  rw [h.take named]
  exact State.takeHead_of_silent (fun n k => (h.checks_request request n k).trans (executes n k)) silent

end Take

/-! ### The command of a frame -/

theorem Frame.kind_of_request {fr : Frame} {r : Request} (h : fr.request = some r) : fr.kind = r.kind.code :=
  (congrArg Frame.kind (requestsAndTheirFramesCorrespond.2 fr r h).2).symm

theorem Frame.payload_of_request {fr : Frame} {r : Request} (h : fr.request = some r) : fr.payload = r.payload :=
  (congrArg Frame.payload (requestsAndTheirFramesCorrespond.2 fr r h).2).symm

theorem Frame.isKind_of_request {fr : Frame} {r : Request} (h : fr.request = some r) : Frame.isKind r.kind fr = true :=
  Frame.isKind_of_code (Frame.kind_of_request h)

theorem Frame.isKindExcept_of_request {fr : Frame} {r : Request} {offset : Nat} {other : Byte} (h : fr.request = some r)
    (byte : r.payload[offset]? ≠ some other) : Frame.isKindExcept r.kind offset other fr = true := by
  simp [Frame.isKindExcept, Frame.isKind_of_request h, Frame.payload_of_request h, byte]

/-- The command of a frame takes it. -/
theorem Frame.exec_command (fr : Frame) (s : State) :
    ∃ names, names fr = true ∧ exec fr.command s = .next (s.take names) := by
  cases found : Kind.ofCode fr.kind with
  | none => exact ⟨fun fr => (Kind.ofCode fr.kind).isNone, by simp [found], by simp only [Frame.command, found]; rfl⟩
  | some k =>
    have named : Frame.isKind k fr = true := by simp [Frame.isKind, found]
    have twoRows {offset : Nat} {other : Byte} (byte : fr.payload[offset]? ≠ some other) :
        Frame.isKindExcept k offset other fr = true := by simp [Frame.isKindExcept, named, byte]
    simp only [Frame.command, found]
    cases k with
    | commit =>
      by_cases quiesce : fr.payload[2]? = some 1#8
      · exact ⟨_, twoRows (offset := 2) (other := 0#8) (by simp [quiesce]), by rw [if_pos quiesce]; rfl⟩
      · exact ⟨_, twoRows quiesce, by rw [if_neg quiesce]; rfl⟩
    | setBranch =>
      by_cases disable : fr.payload[1]? = some 0#8
      · exact ⟨_, twoRows (offset := 1) (other := 1#8) (by simp [disable]), by rw [if_pos disable]; rfl⟩
      · exact ⟨_, twoRows disable, by rw [if_neg disable]; rfl⟩
    | reset =>
      by_cases full : fr.payload[0]? = some 1#8
      · exact ⟨_, twoRows (offset := 0) (other := 0#8) (by simp [full]), by rw [if_pos full]; rfl⟩
      · exact ⟨_, twoRows full, by rw [if_neg full]; rfl⟩
    | _ => exact ⟨_, named, rfl⟩

theorem classOf_of_unknown {c : Byte} (h : Kind.ofCode c = none) : classOf c = .control := by
  simp [classOf, h]

/-- Settles O18: a tag in use is turned away before admission, a malformed frame is answered from its own entry. -/
theorem duplicateTagsAndMalformedFramesAreTurnedAway : Obligations.DuplicateTagsAndMalformedFramesAreTurnedAway := by
  unfold Obligations.DuplicateTagsAndMalformedFramesAreTurnedAway
  refine ⟨fun s fr rest head ready inUse => ?_, fun s fr rest i h malformed unposted => ?_⟩
  · obtain ⟨names, named, command⟩ := fr.exec_command s
    obtain ⟨n, noticed, taken⟩ := State.takeHead_of_notice (s := s) (fr := fr) (rest := rest)
      (x := .duplicateTag fr.tag fr.kind) (entries := s.table.entries) fun n k => by
        have inUse' : (s.gone fr rest n k).tagInUse fr.tag = true := inUse
        rw [State.runChecks, if_pos inUse']
        rfl
    refine ⟨n, noticed, ?_⟩
    rw [command, State.take_of_head head ready named, taken]
    have table : (s.taken fr rest).table = s.table := by
      unfold State.taken
      split <;> rfl
    show Host.Outcome.next { s.taken fr rest with notices := n, table := s.table } = _
    rw [← table]
  · have answered {names : Frame → Bool} (named : names fr = true) :
        s.take names = (s.taken fr rest).answered fr i .badRequest .nothing := by
      rw [h.take named]
      refine State.takeHead_answered fun u table _ _ => ?_
      rw [h.runChecks_malformed table malformed]
      exact u.allocate_refuse_badRequest i fr unposted
    refine ⟨?_, fun unknown => ⟨congrArg Host.Outcome.next (answered (by simp [unknown])), classOf_of_unknown unknown⟩⟩
    obtain ⟨names, named, command⟩ := fr.exec_command s
    rw [command, answered named]

/-! ### Entries that admission makes -/

section Enter

variable {s : State} {i : EntryId} {e : Entry}

theorem State.enter_completeEntry (status : Status) (reply : Reply) :
    (s.enter i e).completeEntry i status reply =
      (s.enter i { e with state := .complete, status := some status, reply := reply }).setArbiter
        (s.arbiter.join e.source i) := by
  rw [State.completeEntry, State.enter_entry_self, State.enter_setEntry _ _ _ _ (by exact rfl)]
  rfl

/-- A control request completes in CTL at its admission (R62). -/
theorem State.enter_answer (ctl : e.source = .ctl) (status : Status) (reply : Reply) :
    (s.enter i e).answer i status reply =
      (s.enter i { e with state := .complete, status := some status, reply := reply }).joinCtl i := by
  rw [State.answer, State.enter_completeEntry, ctl]
  rfl

theorem State.enter_record_answer (fr : Frame) (g : Half) (status : Status) (reply : Reply) :
    (s.enter i (fr.record g)).answer i status reply =
      (s.enter i { fr.record g with status := some status, reply := reply }).joinCtl i := State.enter_answer rfl status reply

end Enter

/-- Settles O31: both requests complete on CTL; what they set shows elsewhere. -/
theorem setArbiterAndResetAreAnswered : Obligations.SetArbiterAndResetAreAnswered := by
  unfold Obligations.SetArbiterAndResetAreAnswered
  constructor
  · intro s fr rest i c h request
    refine congrArg Host.Outcome.next (h.takeHead_silent request (Frame.isKind_of_request request)
      (act := fun u => (u.answered fr i .ok (.setArbiter c)).setArbiter
        { s.arbiter with config := c, ctlQueue := s.arbiter.ctlQueue ++ [i] }) (fun n k => ?_) fun _ _ => rfl)
    exact State.enter_record_answer (s := (s.gone fr rest n k).setArbiter { s.arbiter with config := c }) fr _ _ _
  · intro s fr rest i scope h request t
    have taken {names : Frame → Bool} (named : names fr = true) : s.take names = { t with halt := true } := by
      refine h.takeHead_silent request named
        (act := fun u => { (u.enter i
          { fr.record s.routes.generation with
            status := some .ok, reply := .reset scope, scope := some scope }).joinCtl i with halt := true }) (fun n k => ?_)
        fun _ _ => rfl
      let u : State := { s.gone fr rest n k with halt := true }
      let e : Entry := { fr.record s.routes.generation with scope := some scope }
      have set : (u.enter i (fr.record s.routes.generation)).setEntry i
          { (u.enter i (fr.record s.routes.generation)).entry i with scope := some scope } = u.enter i e := by
        rw [State.enter_entry_self, State.enter_setEntry _ _ _ _ (by exact rfl)]
      have requested : (u.enter i (fr.record s.routes.generation)).requestReset i scope = (u.enter i e).answer i .ok (.reset scope) :=
        congrArg (State.answer · i .ok (.reset scope)) set
      exact requested.trans (State.enter_answer rfl _ _)
    refine ⟨fun soft => congrArg Host.Outcome.next (taken ?_), fun full => congrArg Host.Outcome.next (taken ?_)⟩
    · exact Frame.isKindExcept_of_request request (by subst soft; decide)
    · exact Frame.isKindExcept_of_request request (by subst full; decide)

/-- Settles O25: the staging bank is edited beside the answer, or is not. -/
theorem stagingBankIsEditedOrLocked : Obligations.StagingBankIsEditedOrLocked := by
  unfold Obligations.StagingBankIsEditedOrLocked
  refine ⟨fun s fr rest i slot record h request => ?_, fun s fr rest i h kind payload => ?_⟩
  · cases locked : s.routes.pendingCommit.isSome with
    | true =>
      rw [if_pos rfl]
      refine congrArg Host.Outcome.next (h.takeHead_silent request (Frame.isKind_of_request request)
        (act := fun u => u.answered fr i .stagingLocked (.stageRoute slot)) (fun n k => ?_) fun _ _ => rfl)
      have locked' : ((s.gone fr rest n k).enter i (fr.record s.routes.generation)).routes.pendingCommit.isSome = true := locked
      rw [State.execute, State.stage, if_pos locked']
      exact State.enter_record_answer fr _ _ _
    | false =>
      rw [if_neg (by decide)]
      refine congrArg Host.Outcome.next (h.takeHead_silent request (Frame.isKind_of_request request)
        (act := fun u => (u.answered fr i .ok (.stageRoute slot)).setRoutes
          { s.routes with staging := Table.set s.routes.staging slot record }) (fun n k => ?_) fun _ _ => rfl)
      have free : ¬ ((s.gone fr rest n k).enter i (fr.record s.routes.generation)).routes.pendingCommit.isSome = true :=
        Bool.eq_false_iff.mp locked
      rw [State.execute, State.stage, if_neg free]
      exact State.enter_record_answer
        (s := (s.gone fr rest n k).setRoutes { s.routes with staging := Table.set s.routes.staging slot record }) fr _ _ _
  · have request : fr.request = some .discard := by
      simp [Frame.request, (Kind.ofCode_eq_some_iff fr.kind .discard).mpr kind, payload]
    refine ⟨fun locked => ?_, fun free => ?_⟩
    · refine congrArg Host.Outcome.next (h.takeHead_silent request (Frame.isKind_of_request request)
        (act := fun u => u.answered fr i .stagingLocked (.discard s.routes.generation)) (fun n k => ?_) fun _ _ => rfl)
      have locked' : ((s.gone fr rest n k).enter i (fr.record s.routes.generation)).routes.pendingCommit.isSome = true := locked
      rw [State.execute, State.discardStaging, if_pos locked']
      exact State.enter_record_answer fr _ _ _
    · refine congrArg Host.Outcome.next (h.takeHead_silent request (Frame.isKind_of_request request)
        (act := fun u => (u.answered fr i .ok (.discard s.routes.generation)).setRoutes
          { s.routes with staging := s.routes.active }) (fun n k => ?_) fun _ _ => rfl)
      have free' : ¬ ((s.gone fr rest n k).enter i (fr.record s.routes.generation)).routes.pendingCommit.isSome = true :=
        Bool.eq_false_iff.mp free
      rw [State.execute, State.discardStaging, if_neg free']
      exact State.enter_record_answer (s := (s.gone fr rest n k).setRoutes { s.routes with staging := s.routes.active }) fr _ _ _

section Commit

variable {s : State} {i : EntryId} {fr : Frame} {g : Half}

theorem State.enter_commitNow :
    (s.enter i (fr.record g)).commitNow i =
      ((s.enter i { fr.record g with status := some .ok, reply := .commit (s.routes.generation + 1#16) none }).joinCtl i).setRoutes
        { s.routes with active := s.routes.staging, generation := s.routes.generation + 1#16 } :=
  State.enter_record_answer (s := s.setRoutes s.routes.perform) fr g .ok (.commit (s.routes.generation + 1#16) none)

theorem State.enter_startQuiesce (timeout : Nat) :
    (s.enter i (fr.record g)).startQuiesce i timeout =
      (s.enter i { fr.record g with state := .held }).setRoutes
        { s.routes with pendingCommit := some { entry := i, tag := fr.tag, remaining := timeout * 1152000 } } := by
  rw [State.startQuiesce, State.enter_entry_self, State.enter_setEntry _ _ _ _ (by exact rfl)]
  rfl

theorem State.enter_dataInUse (control : classOf fr.kind = .control) :
    (s.enter i (fr.record g)).table.dataInUse = s.table.dataInUse := by
  have cls : (fr.record g).cls = .control := control
  simp only [State.enter, cls]
  rfl

/-- What a COMMIT is answered by the tests of R14 in their order, on a route table and a count of DATA entries. -/
def State.commitTested (u : State) (r : RouteUnit) (dataInUse : Nat) (i : EntryId) (fr : Frame) (expected : Half)
    (mode : CommitMode) (timeout : Half) : State :=
  if r.pendingCommit.isSome then u.answered fr i .commitBusy (.commit r.generation none)
  else if expected ≠ r.generation then u.answered fr i .staleGeneration (.commit r.generation none)
  else
    match r.staging.validate with
    | some f => u.answered fr i .tableInvalid (.commit r.generation (some f))
    | none =>
      if mode = .immediate ∨ dataInUse = 0 then
        (u.answered fr i .ok (.commit (r.generation + 1#16) none)).setRoutes
          { r with active := r.staging, generation := r.generation + 1#16 }
      else
        (u.enter i { fr.record r.generation with state := .held }).setRoutes
          { r with pendingCommit := some { entry := i, tag := fr.tag, remaining := timeout.toNat * 1152000 } }

theorem State.commitTested_credit (u : State) (r : RouteUnit) (dataInUse : Nat) (expected timeout : Half) (mode : CommitMode) :
    (u.commitTested r dataInUse i fr expected mode timeout).hand .credit =
      (u.hand .credit).commitTested r dataInUse i fr expected mode timeout := by
  unfold State.commitTested
  split
  · rfl
  · split
    · rfl
    · split
      · rfl
      · split <;> rfl

theorem State.enter_commit (control : classOf fr.kind = .control) (expected timeout : Half) (mode : CommitMode) :
    (s.enter i (fr.record s.routes.generation)).execute i (.commit expected mode timeout) =
      s.commitTested s.routes s.table.dataInUse i fr expected mode timeout := by
  have dataInUse := State.enter_dataInUse (s := s) (i := i) (g := s.routes.generation) control
  have routes : (s.enter i (fr.record s.routes.generation)).routes = s.routes := rfl
  simp only [State.execute, State.commit, State.commitTested, dataInUse, routes, State.answered]
  split
  · exact State.enter_record_answer ..
  · split
    · exact State.enter_record_answer ..
    · cases s.routes.staging.validate with
      | some f => exact State.enter_record_answer ..
      | none =>
        cases mode with
        | immediate => simpa using State.enter_commitNow
        | quiesce =>
          by_cases drained : s.table.dataInUse = 0
          · simpa [drained] using State.enter_commitNow
          · simpa [drained] using State.enter_startQuiesce timeout.toNat

end Commit

/-- Settles O27: the tests of R14 in their order. -/
theorem commitIsTestedInOrder : Obligations.CommitIsTestedInOrder := by
  unfold Obligations.CommitIsTestedInOrder
  intro s fr rest i expected mode timeout h request g performed waiting t
  have control : classOf fr.kind = .control := by rw [Frame.kind_of_request request]; rfl
  have taken {names : Frame → Bool} (named : names fr = true) : s.take names = t :=
    h.takeHead_silent request named
      (act := fun u => u.commitTested s.routes s.table.dataInUse i fr expected mode timeout)
      (fun n k => State.enter_commit (s := s.gone fr rest n k) control expected timeout mode)
      (fun n k => State.commitTested_credit _ _ _ _ _ _)
  have modeByte : (Request.commit expected mode timeout).payload[2]? = some mode.code := rfl
  refine ⟨fun immediate => congrArg Host.Outcome.next (taken ?_), fun quiesce => congrArg Host.Outcome.next (taken ?_)⟩
  · exact Frame.isKindExcept_of_request request (by rw [modeByte, immediate]; decide)
  · exact Frame.isKindExcept_of_request request (by rw [modeByte, quiesce]; decide)

/-- Settles O28: the HELD entry completes, and the record of the commit is removed. -/
theorem quiesceEndsByDrainOrTimeout : Obligations.QuiesceEndsByDrainOrTimeout := by
  unfold Obligations.QuiesceEndsByDrainOrTimeout
  intro s p running pending held source g finished
  have completes (r : RouteUnit) (status : Status) (reply : Reply) :
      (s.setRoutes r).completeEntry p.entry status reply = (finished status reply).setRoutes r := by
    exact congrArg (fun src => State.setArbiter _ (s.arbiter.join src p.entry)) source
  refine ⟨fun none_inUse => ?_, ?_⟩
  · show Host.Outcome.next s.drain = _
    have due : s.drainDue = true := by simp [State.drainDue, running, pending, none_inUse]
    have held' : ((s.setRoutes { s.routes.perform with pendingCommit := none }).entry p.entry).state = .held := held
    simp only [State.drain, due, pending, if_true]
    rw [if_pos held', completes]
    rfl
  · show Host.Outcome.next s.expireQuiesce = _
    have held' : ((s.setRoutes { s.routes with pendingCommit := none }).entry p.entry).state = .held := held
    simp only [State.expireQuiesce, running, pending, Bool.false_eq_true, if_false]
    rw [if_pos held', completes]
    rfl

/-- The snapshot of a GET_STATUS shows its own entry in use. -/
theorem State.enter_snapshot {s : State} {fr : Frame} {i : EntryId} {g : Half} (control : classOf fr.kind = .control) :
    (s.enter i (fr.record g)).snapshot =
      { inboundFree := 8 - s.rx.inbound.length, dataInUse := s.table.dataInUse, controlInUse := s.table.controlInUse + 1
        commitRemaining := s.routes.pendingCommit.map (fun p => (p.remaining + 1151999) / 1152000)
        arbiterMode := s.arbiter.config.mode, branches := s.engines.map (·.state)
        noticeDepth := s.notices.queue.length, lost := s.notices.lost, generation := s.routes.generation } := by
  have cls : (fr.record g).cls = .control := control
  simp only [State.snapshot, State.enter, Table.map_eq, cls]
  rfl

/-- Settles O24: IDENTIFY is answered at once; the snapshot of GET_STATUS shows the notices as its checks find them. -/
theorem identifyAndGetStatusAnswer : Obligations.IdentifyAndGetStatusAnswer := by
  unfold Obligations.IdentifyAndGetStatusAnswer
  refine ⟨⟨fun s fr rest i h kind => ⟨fun empty => ?_, fun payload => ?_⟩, fun rate g => rfl⟩,
    fun s fr rest i h kind => ⟨fun payload => ?_, fun empty => ?_⟩⟩
  · have request : fr.request = some .identify := by
      simp [Frame.request, (Kind.ofCode_eq_some_iff fr.kind .identify).mpr kind, empty]
    exact congrArg Host.Outcome.next (h.takeHead_silent request (Frame.isKind_of_request request)
      (act := fun u => u.answered fr i .ok (.identify s.rx.rate s.routes.generation))
      (fun n k => State.enter_record_answer fr _ _ _) fun _ _ => rfl)
  · have malformed : fr.request = none := by
      simp [Frame.request, (Kind.ofCode_eq_some_iff fr.kind .identify).mpr kind, payload]
    exact congrArg Host.Outcome.next (h.take_malformed (k := .identify) kind (by decide) malformed)
  · have malformed : fr.request = none := by
      simp [Frame.request, (Kind.ofCode_eq_some_iff fr.kind .getStatus).mpr kind, payload]
    exact congrArg Host.Outcome.next (h.take_malformed (k := .getStatus) kind (by decide) malformed)
  · have request : fr.request = some .getStatus := by
      simp [Frame.request, (Kind.ofCode_eq_some_iff fr.kind .getStatus).mpr kind, empty]
    have control : classOf fr.kind = .control := by rw [kind]; rfl
    let shown (n : NoticeUnit) : Snapshot :=
      { inboundFree := 8 - rest.length, dataInUse := s.table.dataInUse, controlInUse := s.table.controlInUse + 1
        commitRemaining := s.routes.pendingCommit.map (fun p => (p.remaining + 1151999) / 1152000)
        arbiterMode := s.arbiter.config.mode, branches := s.engines.map (·.state), noticeDepth := n.queue.length
        lost := n.lost, generation := s.routes.generation }
    have checks (n : NoticeUnit) (k : Nat) :
        (s.gone fr rest n k).runChecks fr = (s.gone fr rest n k).answered fr i .ok (.status (shown n)) := by
      rw [h.checks_request request]
      exact (congrArg (fun x => State.answer _ i .ok (.status x)) (State.enter_snapshot control)).trans
        (State.enter_record_answer fr _ _ _)
    have named : Frame.isKind .getStatus fr = true := Frame.isKind_of_request request
    rw [show exec .getStatus s = .next (s.take (Frame.isKind .getStatus)) from rfl, h.take named]
    rcases State.takeHead_of_checks (act := fun u => u.answered fr i .ok (.status (shown u.notices))) checks
      with first | ⟨due, last⟩
    · exact ⟨(s.taken fr rest).notices, .inr rfl, congrArg Host.Outcome.next first⟩
    · refine ⟨s.notices, .inl rfl, congrArg Host.Outcome.next ?_⟩
      rw [last, State.taken, if_pos due]
      rfl

end Sys2Proof.Machine
end

section
/-! PROOFS. Data requests at their admission: resolved against the active bank, then refused, placed or spread over a group. -/

namespace Sys2Proof.Machine

/-! ### An entry refused at its admission -/

/-- The record of a data request once its address, length and data are written down (R26). -/
def Frame.asking (fr : Frame) (g : Half) (a : Half) (n : Nat) (data : List Byte) : Entry :=
  { fr.record g with address := some a, length := some n, data := data }

section Refuse

variable {s : State} {i : EntryId} {e : Entry}

/-- A request refused at its admission is answered from CTL (R60). -/
theorem State.enter_refuse (unposted : e.posted = false) (ctl : e.source = .ctl) {status : Status} {reply : Reply}
    (replies : e.refusalReply status = reply) :
    (s.enter i e).refuse i status =
      (s.enter i { e with state := .complete, status := some status, reply := reply }).joinCtl i := by
  have same : ((s.enter i e).entry i).posted = false := by rw [State.enter_entry_self, unposted]
  rw [State.refuse, if_neg (Bool.eq_false_iff.mp same), State.enter_entry_self, replies]
  exact State.enter_answer ctl status reply

/-- A posted write that ends at its admission leaves no trace in the table, and is reported (R61). -/
theorem State.enter_endPosted (used : e.inUse = true) {status : Status} {outcomes : List (BranchId × Status)}
    (reported : status ≠ .ok ∧ status ≠ .cancelled) (lists : e.postedOutcomes = outcomes) :
    (s.enter i e).endPosted i status =
      { s with
        notices := s.notices.hand (.postedFailed e.tag status outcomes)
        table := { s.table with entries := Table.set s.table.entries i Entry.free } } := by
  have used' : ((s.enter i e).entry i).inUse = true := by rw [State.enter_entry_self, used]
  have freed : (s.enter i e).freeEntry i =
      { s with table := { s.table with entries := Table.set s.table.entries i Entry.free } } := by
    rw [State.freeEntry, if_pos used', State.enter_entry_self, State.enter]
    cases e.cls <;> simp [OutstandingTable.raise, OutstandingTable.lower, Table.set]
  have silent : ¬(status = .ok ∨ status = .cancelled) := by simp [reported]
  rw [State.endPosted, if_neg silent, freed, State.enter_entry_self, lists]
  rfl

theorem State.enter_refuse_posted (posted : e.posted = true) (used : e.inUse = true) {status : Status}
    {outcomes : List (BranchId × Status)} (reported : status ≠ .ok ∧ status ≠ .cancelled)
    (lists : e.postedOutcomes = outcomes) :
    (s.enter i e).refuse i status =
      { s with
        notices := s.notices.hand (.postedFailed e.tag status outcomes)
        table := { s.table with entries := Table.set s.table.entries i Entry.free } } := by
  have same : ((s.enter i e).entry i).posted = true := by rw [State.enter_entry_self, posted]
  rw [State.refuse, if_pos same, State.enter_endPosted used reported lists]

end Refuse

/-! ### Lookup -/

section Resolve

variable {s : State} {i : EntryId} {fr : Frame} {g : Half} {kind : Kind} {a : Half} {n : Nat} {data : List Byte}
variable {w : Option WatchRecord} {r : Route}

theorem State.enter_asking :
    (s.enter i (fr.record g)).setEntry i
        { (s.enter i (fr.record g)).entry i with address := some a, length := some n, data := data } =
      s.enter i (fr.asking g a n data) := by
  rw [State.enter_entry_self]
  exact State.enter_setEntry _ _ _ _ (by exact rfl)

theorem State.enter_resolve_error {status : Status} (refused : s.routes.active.lookup kind a n = .error status) :
    (s.enter i (fr.record g)).resolve i kind a n data w = (s.enter i (fr.asking g a n data)).refuse i status := by
  have refused' : (s.enter i (fr.asking g a n data)).routes.active.lookup kind a n = .error status := refused
  simp only [State.resolve, State.enter_asking, refused']

theorem State.enter_watch :
    (s.enter i (fr.asking g a n data)).setEntry i { (s.enter i (fr.asking g a n data)).entry i with watch := w } =
      s.enter i { fr.asking g a n data with watch := w } := by
  rw [State.enter_entry_self]
  exact State.enter_setEntry _ _ _ _ (by exact rfl)

theorem State.enter_resolve_direct {m : RouteMember} (found : s.routes.active.lookup kind a n = .ok r)
    (direct : r.kind = .direct) (members : r.members = [m]) :
    (s.enter i (fr.record g)).resolve i kind a n data w =
      (s.enter i { fr.asking g a n data with watch := w }).placeDirect i (r.target a m) := by
  have found' : (s.enter i (fr.asking g a n data)).routes.active.lookup kind a n = .ok r := found
  have targets : r.targets a = [r.target a m] := by rw [Route.targets, members]; rfl
  simp only [State.resolve, State.enter_asking, found', State.enter_watch, direct, targets]

theorem State.enter_resolve_group (found : s.routes.active.lookup kind a n = .ok r) (group : r.kind = .group) :
    (s.enter i (fr.record g)).resolve i kind a n data w =
      (s.enter i { fr.asking g a n data with watch := w }).placeGroup i (r.targets a) := by
  have found' : (s.enter i (fr.asking g a n data)).routes.active.lookup kind a n = .ok r := found
  simp only [State.resolve, State.enter_asking, found', State.enter_watch, group]

end Resolve

/-! ### DIRECT requests -/

section Direct

variable {s : State} {i : EntryId} {e : Entry} {m : Member}

theorem State.enter_placeDirect_up (up : (s.engine m.branch).up = true) :
    (s.enter i e).placeDirect i m =
      (s.enter i { e with state := .queued, members := [m], source := .branch m.branch }).setEngine m.branch
        { s.engine m.branch with queue := (s.engine m.branch).queue ++ [⟨i, 0⟩] } := by
  have up' : ((s.enter i e).engine m.branch).up = true := up
  rw [State.placeDirect, if_pos up', State.enter_entry_self, State.enter_setEntry _ _ _ _ (by exact rfl)]
  rfl

theorem State.enter_placeDirect_down (down : (s.engine m.branch).up = false) :
    (s.enter i e).placeDirect i m = (s.enter i { e with members := [m] }).refuse i .branchDown := by
  have down' : ¬((s.enter i e).engine m.branch).up = true := Bool.eq_false_iff.mp down
  rw [State.placeDirect, if_neg down', State.enter_entry_self, State.enter_setEntry _ _ _ _ (by exact rfl)]

end Direct

/-! ### Taking a data request -/

section Taking

variable {s : State} {fr : Frame} {rest : List Frame} {i : EntryId} {names : Frame → Bool} {r : Request}

/-- A request whose checks hand one notice and set the entries. -/
theorem State.Takes.takeHead_notice (h : s.Takes fr rest i) (request : fr.request = some r) (named : names fr = true)
    {x : Notice} {entries : Vector Entry 16}
    (executes : ∀ n k, ((s.gone fr rest n k).enter i (fr.record s.routes.generation)).execute i r =
      { s.gone fr rest (n.hand x) k with table := { s.table with entries := entries } }) :
    ∃ n, s.noticed fr rest x n ∧
      s.take names = { s.taken fr rest with notices := n, table := { s.table with entries := entries } } := by
  rw [h.take named]
  exact State.takeHead_of_notice fun n k => (h.checks_request request n k).trans (executes n k)

theorem Frame.record_unposted {g : Half} (request : fr.request = some r) (kind : r.kind ≠ .writePosted) :
    (fr.record g).posted = false := by
  refine beq_eq_false_iff_ne.mpr fun posted => kind (Option.some.inj ?_)
  rw [← (Kind.ofCode_eq_some_iff _ _).mpr (Frame.kind_of_request request), (Kind.ofCode_eq_some_iff _ .writePosted).mpr posted]

theorem Frame.record_posted {g : Half} (kind : fr.kind = 0x03#8) : (fr.record g).posted = true := beq_iff_eq.mpr kind

end Taking

/-- Settles O19: refused at each of the three places, a posted write is reported and gone. -/
theorem refusedPostedWriteIsReportedByNotice : Obligations.RefusedPostedWriteIsReportedByNotice := by
  unfold Obligations.RefusedPostedWriteIsReportedByNotice
  intro s fr rest i status h kind refused notOk notCancelled
  have named : Frame.isKind .writePosted fr = true := Frame.isKind_of_code kind
  suffices checks : ∀ n k, (s.gone fr rest n k).runChecks fr =
      { s.gone fr rest (n.hand (.postedFailed fr.tag status [])) k with
        table := { s.table with entries := Table.set s.table.entries i Entry.free } } by
    obtain ⟨n, noticed, taken⟩ := State.takeHead_of_notice checks
    exact ⟨n, noticed, congrArg Host.Outcome.next ((h.take named).trans taken)⟩
  intro n k
  rcases refused with ⟨malformed, rfl⟩ | ⟨a, d, request, refused⟩
  · rw [h.runChecks_malformed (u := s.gone fr rest n k) rfl malformed, State.allocate_eq_enter]
    exact State.enter_refuse_posted (by exact Frame.record_posted (g := s.routes.generation) kind) rfl ⟨notOk, notCancelled⟩ rfl
  · rw [h.checks_request request]
    show ((s.gone fr rest n k).enter i _).resolve i .writePosted a d.length d none = _
    rcases refused with refused | ⟨r, m, found, direct, members, down, rfl⟩
    · rw [State.enter_resolve_error (s := s.gone fr rest n k) refused]
      exact State.enter_refuse_posted (by exact Frame.record_posted (g := s.routes.generation) kind) rfl ⟨notOk, notCancelled⟩ rfl
    · rw [State.enter_resolve_direct (s := s.gone fr rest n k) found direct members,
        State.enter_placeDirect_down (s := s.gone fr rest n k) down]
      exact State.enter_refuse_posted (by exact Frame.record_posted (g := s.routes.generation) kind) rfl ⟨notOk, notCancelled⟩ rfl

section Refused

variable {s : State} {fr : Frame} {rest : List Frame} {i : EntryId} {r : Request} {kind : Kind} {a : Half} {n : Nat}
variable {data : List Byte} {w : Option WatchRecord} {names : Frame → Bool}

/-- An unposted request that the lookup refuses. -/
theorem State.Takes.take_refused (h : s.Takes fr rest i) (request : fr.request = some r) (unposted : r.kind ≠ .writePosted)
    (named : names fr = true) (resolves : ∀ u : State, u.execute i r = u.resolve i kind a n data w) {status : Status}
    (refused : s.routes.active.lookup kind a n = .error status) {reply : Reply}
    (replies : (fr.asking s.routes.generation a n data).refusalReply status = reply) :
    s.take names =
      ((s.taken fr rest).enter i
        { fr.record s.routes.generation with
          address := some a, length := some n, data := data, status := some status, reply := reply }).joinCtl i :=
  h.takeHead_silent request named
    (act := fun u => (u.enter i
      { fr.record s.routes.generation with
        address := some a, length := some n, data := data, status := some status, reply := reply }).joinCtl i)
    (fun k f => by
      rw [resolves, State.enter_resolve_error (s := s.gone fr rest k f) refused]
      exact State.enter_refuse (by exact Frame.record_unposted (g := s.routes.generation) request unposted) rfl replies)
    fun _ _ => rfl

/-- An unposted request whose DIRECT branch is down. -/
theorem State.Takes.take_down (h : s.Takes fr rest i) (request : fr.request = some r) (unposted : r.kind ≠ .writePosted)
    (named : names fr = true) (resolves : ∀ u : State, u.execute i r = u.resolve i kind a n data w) {q : Route}
    {m : RouteMember} (found : s.routes.active.lookup kind a n = .ok q) (direct : q.kind = .direct) (members : q.members = [m])
    (down : (s.engine (q.target a m).branch).up = false) {reply : Reply}
    (replies : { fr.asking s.routes.generation a n data with watch := w, members := [q.target a m] }.dataReply .branchDown =
      reply) :
    s.take names =
      ((s.taken fr rest).enter i
        { fr.record s.routes.generation with
          address := some a, length := some n, members := [q.target a m], data := data, watch := w
          status := some .branchDown, reply := reply }).joinCtl i :=
  h.takeHead_silent request named
    (act := fun u => (u.enter i
      { fr.record s.routes.generation with
        address := some a, length := some n, members := [q.target a m], data := data, watch := w
        status := some .branchDown, reply := reply }).joinCtl i)
    (fun k f => by
      rw [resolves, State.enter_resolve_direct (s := s.gone fr rest k f) found direct members,
        State.enter_placeDirect_down (s := s.gone fr rest k f) down]
      exact State.enter_refuse (by exact Frame.record_unposted (g := s.routes.generation) request unposted) rfl replies)
    fun _ _ => rfl

/-- A request whose DIRECT branch is up. -/
theorem State.Takes.take_placed (h : s.Takes fr rest i) (request : fr.request = some r) (named : names fr = true)
    (resolves : ∀ u : State, u.execute i r = u.resolve i kind a n data w) {q : Route}
    {m : RouteMember} (found : s.routes.active.lookup kind a n = .ok q) (direct : q.kind = .direct) (members : q.members = [m])
    (up : (s.engine (q.target a m).branch).up = true) :
    s.take names =
      ((s.taken fr rest).enter i
        { fr.record s.routes.generation with
          state := .queued, address := some a, length := some n, members := [q.target a m], data := data, watch := w
          source := .branch (q.target a m).branch }).setEngine (q.target a m).branch
        { s.engine (q.target a m).branch with queue := (s.engine (q.target a m).branch).queue ++ [⟨i, 0⟩] } :=
  h.takeHead_silent request named
    (act := fun u => (u.enter i
        { fr.record s.routes.generation with
          state := .queued, address := some a, length := some n, members := [q.target a m], data := data, watch := w
          source := .branch (q.target a m).branch }).setEngine (q.target a m).branch
        { s.engine (q.target a m).branch with queue := (s.engine (q.target a m).branch).queue ++ [⟨i, 0⟩] })
    (fun k f => by
      rw [resolves, State.enter_resolve_direct (s := s.gone fr rest k f) found direct members]
      exact State.enter_placeDirect_up (s := s.gone fr rest k f) up)
    fun _ _ => rfl

end Refused

/-- Settles O20: refused by the lookup or by its branch, a request is answered from CTL by the reply of its kind. -/
theorem refusedDataRequestIsAnsweredFromCtl : Obligations.RefusedDataRequestIsAnsweredFromCtl := by
  unfold Obligations.RefusedDataRequestIsAnsweredFromCtl
  intro s fr rest i h answer
  refine ⟨fun a n status request refused notBad notOk => ?_, fun a d status request refused notBad => ?_,
    fun a iv li mask pat status request refused notBad => ?_, fun a r m direct members down => ?_⟩
  · refine congrArg Host.Outcome.next (h.take_refused request nofun (Frame.isKind_of_request request) (fun _ => rfl) refused ?_)
    rw [Entry.refusalReply, if_neg notBad, Entry.dataReply_read (Frame.kind_of_request request) rfl rfl, if_neg notOk]
  · refine congrArg Host.Outcome.next (h.take_refused request nofun (Frame.isKind_of_request request) (fun _ => rfl) refused ?_)
    rw [Entry.refusalReply, if_neg notBad, Entry.dataReply_write (Frame.kind_of_request request) rfl rfl]
    rfl
  · refine congrArg Host.Outcome.next (h.take_refused request nofun (Frame.isKind_of_request request) (fun _ => rfl) refused ?_)
    rw [Entry.refusalReply, if_neg notBad, Entry.dataReply_watch (Frame.kind_of_request request) rfl rfl]
    rfl
  · constructor
    · intro n request found
      exact congrArg Host.Outcome.next (h.take_down request nofun (Frame.isKind_of_request request) (fun _ => rfl) found direct
        members down (Entry.dataReply_read (Frame.kind_of_request request) rfl rfl _))
    · constructor
      · intro d request found
        exact congrArg Host.Outcome.next (h.take_down request nofun (Frame.isKind_of_request request) (fun _ => rfl) found direct
          members down (Entry.dataReply_write (Frame.kind_of_request request) rfl rfl _))
      · intro iv li mask pat request found
        exact congrArg Host.Outcome.next (h.take_down request nofun (Frame.isKind_of_request request) (fun _ => rfl) found direct
          members down (Entry.dataReply_watch (Frame.kind_of_request request) rfl rfl _))

/-- Settles O21: the four kinds are placed alike. -/
theorem directRequestIsPlaced : Obligations.DirectRequestIsPlaced := by
  unfold Obligations.DirectRequestIsPlaced
  intro s fr rest i r m a h direct members up x placed
  have place {q : Request} {kind : Kind} {n : Nat} {data : List Byte} {w : Option WatchRecord} (request : fr.request = some q)
      (resolves : ∀ u : State, u.execute i q = u.resolve i kind a n data w)
      (found : s.routes.active.lookup kind a n = .ok r) : s.take (Frame.isKind q.kind) = placed n data w :=
    h.take_placed request (Frame.isKind_of_request request) resolves found direct members up
  exact ⟨fun n request found => congrArg Host.Outcome.next (place request (fun _ => rfl) found),
    fun d request found => congrArg Host.Outcome.next (place request (fun _ => rfl) found),
    fun d request found => congrArg Host.Outcome.next (place request (fun _ => rfl) found),
    fun iv li mask pat request found => congrArg Host.Outcome.next (place request (fun _ => rfl) found)⟩

/-! ### Groups -/

/-- The engines after one item for each PENDING member of a list has joined the tail of its branch's queue (R59). -/
def spread (i : EntryId) (l : List (Member × Nat)) (v : Vector Engine 4) : Vector Engine 4 :=
  l.foldl (fun v x =>
    if x.1.state = .pending then
      Table.set v x.1.branch
        { Table.get v x.1.branch with queue := (Table.get v x.1.branch).queue ++ [⟨i, x.2⟩] }
    else v) v

theorem foldl_placeMember (i : EntryId) (l : List (Member × Nat)) (s : State) :
    l.foldl (State.placeMember i) s = s.withEngines (spread i l s.engines) := by
  induction l generalizing s with
  | nil => rfl
  | cons x l ih =>
    simp only [spread, List.foldl_cons, State.placeMember] at ih ⊢
    by_cases pending : x.1.state = .pending
    · rw [if_pos pending, if_pos pending, ih]
      rfl
    · rw [if_neg pending, if_neg pending, ih]

theorem get_spread (i : EntryId) (l : List (Member × Nat)) (v : Vector Engine 4) (b : BranchId) :
    Table.get (spread i l v) b =
      { Table.get v b with
        queue := (Table.get v b).queue ++
          (l.filter (fun x => x.1.state == .pending && x.1.branch == b)).map (fun x => ⟨i, x.2⟩) } := by
  induction l generalizing v with
  | nil => simp [spread]
  | cons x l ih =>
    rw [spread, List.foldl_cons, ← spread, ih]
    by_cases pending : x.1.state = .pending
    · rw [if_pos pending]
      by_cases there : x.1.branch = b
      · subst there
        simp [pending]
      · simp [pending, there, Table.get_set_ne, Ne.symm there]
    · simp [pending]

theorem spread_of_none {i : EntryId} {l : List (Member × Nat)} (none_pending : ∀ x ∈ l, x.1.state ≠ .pending)
    (v : Vector Engine 4) : spread i l v = v := by
  induction l with
  | nil => rfl
  | cons x l ih =>
    rw [spread, List.foldl_cons, if_neg (none_pending x List.mem_cons_self), ← spread]
    exact ih fun y hy => none_pending y (List.mem_cons_of_mem x hy)

theorem State.enter_placeGroup (s : State) (i : EntryId) (e : Entry) (targets : List Member) :
    let members := targets.map s.spawnMember
    (s.enter i e).placeGroup i targets =
      ((s.enter i { e with members := members, group := true, state := .queued, source := .ctl }).withEngines
        (spread i members.zipIdx s.engines)).settle i := by
  intro members
  rw [State.placeGroup, State.enter_entry_self, State.enter_setEntry _ _ _ _ (by exact rfl), foldl_placeMember]
  rfl

section Group

variable {s : State} {fr : Frame} {rest : List Frame} {i : EntryId} {a : Half} {d : List Byte} {r : Route}

/-- The record of a group write, with its members in route order (R26, R58). -/
def Frame.grouping (fr : Frame) (g : Half) (a : Half) (d : List Byte) (members : List Member) : Entry :=
  { fr.asking g a d.length d with members := members, group := true, state := .queued }

theorem State.enter_group {posted : Bool} (found : s.routes.active.lookup (if posted then .writePosted else .write) a d.length = .ok r)
    (group : r.kind = .group) (g : Half) :
    let members := (r.targets a).map s.spawnMember
    (s.enter i (fr.record g)).execute i (.write posted a d) =
      ((s.enter i (fr.grouping g a d members)).withEngines (spread i members.zipIdx s.engines)).settle i := by
  intro members
  exact (State.enter_resolve_group found group).trans (s.enter_placeGroup i _ _)

theorem spawnMember_of_down {m : RouteMember} (down : (s.engine (r.target a m).branch).up = false) :
    s.spawnMember (r.target a m) = { r.target a m with state := .finished, outcome := some .branchDown } :=
  if_neg (Bool.eq_false_iff.mp down)

theorem Frame.isKind_write {posted : Bool} (request : fr.request = some (.write posted a d)) :
    Frame.isKind (if posted then .writePosted else .write) fr = true := Frame.isKind_of_request request

end Group

/-- Settles O22: with a member PENDING the completion test finds the entry at work. -/
theorem groupWriteSpawnsItsMembers : Obligations.GroupWriteSpawnsItsMembers := by
  unfold Obligations.GroupWriteSpawnsItsMembers
  intro s fr rest i posted a d r h request found group someUp members
  obtain ⟨m, member, up⟩ := someUp
  have spawned : (r.targets a).map s.spawnMember = members := by
    rw [Route.targets, List.map_map]
    rfl
  have working : (fr.grouping s.routes.generation a d members).unfinished = true := by
    refine (Entry.unfinished_iff _).mpr ⟨r.target a m, List.mem_map.mpr ⟨m, member, ?_⟩, .inl rfl⟩
    exact if_pos up
  have executes (n : NoticeUnit) (k : Nat) :
      ((s.gone fr rest n k).enter i (fr.record s.routes.generation)).execute i (.write posted a d) =
        ((s.gone fr rest n k).enter i (fr.grouping s.routes.generation a d members)).withEngines
          (spread i members.zipIdx s.engines) := by
    have same : (r.targets a).map (s.gone fr rest n k).spawnMember = members := spawned
    rw [State.enter_group (s := s.gone fr rest n k) found group, same]
    refine State.settle_of_unfinished ?_
    show (((s.gone fr rest n k).enter i (fr.grouping s.routes.generation a d members)).entry i).unfinished = true
    rw [State.enter_entry_self, working]
  have taken := h.takeHead_silent request (Frame.isKind_write request)
    (act := fun u => (u.enter i (fr.grouping s.routes.generation a d members)).withEngines (spread i members.zipIdx s.engines))
    executes fun _ _ => rfl
  let t := ((s.taken fr rest).enter i (fr.grouping s.routes.generation a d members)).withEngines
    (spread i members.zipIdx s.engines)
  refine ⟨t, ?_, rfl, rfl, get_spread i members.zipIdx s.engines⟩
  cases posted with
  | false => exact congrArg Host.Outcome.next taken
  | true => exact congrArg Host.Outcome.next taken

section AllDown

variable {s : State} {fr : Frame} {i : EntryId} {a : Half} {d : List Byte} {r : Route}

theorem combinedStatus_replicate {o : Status} {l : List Status} (nonempty : l ≠ []) (same : ∀ x ∈ l, x = o) :
    combinedStatus l = o := by
  cases l with
  | nil => exact absurd rfl nonempty
  | cons x l =>
    have first := same x List.mem_cons_self
    subst first
    refine if_pos (List.all_eq_true.mpr fun y hy => beq_iff_eq.mpr (same y (List.mem_cons_of_mem _ hy)))

/-- A group write all of whose members finished at its admission meets the completion test at once (R58, R110). -/
theorem State.enter_group_down {posted : Bool}
    (found : s.routes.active.lookup (if posted then .writePosted else .write) a d.length = .ok r) (group : r.kind = .group)
    (nonempty : r.members ≠ []) (down : ∀ m ∈ r.members, (s.engine (r.target a m).branch).up = false) (g : Half) :
    let e := fr.grouping g a d
      (r.members.map (fun m => { r.target a m with state := .finished, outcome := some .branchDown }))
    (s.enter i (fr.record g)).execute i (.write posted a d) = (s.enter i e).finishEntry i ∧
      e.outcomes = r.members.map (fun m => ((r.target a m).branch, Status.branchDown)) ∧ e.decidedStatus = .branchDown := by
  intro e
  have spawned : (r.targets a).map s.spawnMember = e.members := by
    rw [Route.targets, List.map_map]
    exact List.map_congr_left fun m member => spawnMember_of_down (down m member)
  have finished {x : Member} (member : x ∈ e.members) : x.state = .finished := by
    obtain ⟨m, _, rfl⟩ := List.mem_map.mp member
    rfl
  have outcomes : e.outcomes = r.members.map (fun m => ((r.target a m).branch, Status.branchDown)) := by
    show List.map _ (List.map _ r.members) = _
    rw [List.map_map]
    rfl
  refine ⟨?_, outcomes, ?_⟩
  · have quiet : spread i e.members.zipIdx s.engines = s.engines :=
      spread_of_none (fun x hx => by
        have member : x.1 ∈ e.members := (List.mem_zipIdx hx).2.2 ▸ List.getElem_mem _
        rw [finished member]
        decide) _
    have working : (s.enter i e).entry i = e := State.enter_entry_self s i e
    rw [State.enter_group found group, spawned, quiet]
    refine State.settle_of_finished (s := s.enter i e) (by rw [working]; exact .inl rfl) ?_
    rw [working, Bool.eq_false_iff, Ne, Entry.unfinished_iff]
    rintro ⟨x, member, pending | inService⟩
    · exact absurd ((finished member).symm.trans pending) (by decide)
    · exact absurd ((finished member).symm.trans inService) (by decide)
  · have uncancelled : (e.cancelRequested || e.members.any (fun m => m.state == .dropped)) = false := by
      simp only [Bool.or_eq_false_iff, List.any_eq_false]
      exact ⟨rfl, fun x member => by rw [finished member]; decide⟩
    rw [Entry.decidedStatus, uncancelled, if_neg (by decide), outcomes, List.map_map]
    exact combinedStatus_replicate (by simpa using nonempty) (by simp)

end AllDown

/-- Settles O23: with no branch up the entry completes at its admission, by its answer or by its notice. -/
theorem groupWithEveryBranchDownIsRefused : Obligations.GroupWithEveryBranchDownIsRefused := by
  unfold Obligations.GroupWithEveryBranchDownIsRefused
  intro s fr rest i posted a d r h request found group nonempty down members outcomes
  let g := s.routes.generation
  let e := fr.grouping g a d members
  have executes (n : NoticeUnit) (k : Nat) := State.enter_group_down (s := s.gone fr rest n k) (fr := fr) (i := i)
    (posted := posted) found group nonempty down g
  have kind : fr.kind = (Request.write posted a d).kind.code := Frame.kind_of_request request
  constructor
  · rintro rfl
    have reply : e.dataReply .branchDown = .write a d.length outcomes := by
      rw [Entry.dataReply_write kind rfl rfl]
      exact congrArg _ (executes s.notices 0).2.1
    refine congrArg Host.Outcome.next (h.takeHead_silent request (Frame.isKind_of_request request)
      (act := fun u => (u.enter i
        { fr.record g with
          address := some a, length := some d.length, members := members, data := d, group := true
          status := some .branchDown, reply := .write a d.length outcomes }).joinCtl i) (fun n k => ?_) fun _ _ => rfl)
    obtain ⟨ends, _, decided⟩ := executes n k
    have unposted : ¬e.posted = true := Bool.eq_false_iff.mp (Frame.record_unposted (g := g) request nofun)
    refine ends.trans ?_
    rw [State.finishEntry, State.enter_entry_self, if_neg unposted, decided, reply]
    exact State.enter_answer rfl _ _
  · rintro rfl
    have checked := h.takeHead_notice request (Frame.isKind_of_request request)
      (x := .postedFailed fr.tag .branchDown outcomes) (entries := Table.set s.table.entries i Entry.free) fun n k => ?_
    · obtain ⟨n, noticed, taken⟩ := checked
      exact ⟨n, noticed, congrArg Host.Outcome.next taken⟩
    obtain ⟨ends, lists, decided⟩ := executes n k
    refine ends.trans ?_
    rw [State.finishEntry, State.enter_entry_self, if_pos (by exact Frame.record_posted (g := s.routes.generation) kind), decided]
    exact State.enter_endPosted (s := s.gone fr rest n k) rfl ⟨by decide, by decide⟩ lists

end Sys2Proof.Machine
end

section
/-! PROOFS. SET_BRANCH: what an enable and a disable do to an engine, beside the answer. -/

namespace Sys2Proof.Machine

section Reconfigure

variable {s : State} {b : BranchId} {c : BranchConfig}

theorem State.reconfigure_of_enabled (on : c.enabled = true) :
    s.reconfigure b c = s.setEngine b
      { s.engine b with
        config := c, disablePending := false
        state := if (s.engine b).state = .disabled then .idle else (s.engine b).state } := by
  simp only [State.reconfigure, on, if_true, State.enable, State.setEngine_engine_self, State.setEngine_setEngine]

/-- While a try or a recovery is on the wire, a disable is set pending (R90). -/
theorem State.reconfigure_of_busy (off : c.enabled = false) (busy : (s.engine b).state = .exchange ∨ (s.engine b).state = .recovery) :
    s.reconfigure b c = s.setEngine b { s.engine b with config := c, disablePending := true } := by
  simp only [State.reconfigure, off, Bool.false_eq_true, if_false, State.disable, State.setEngine_engine_self,
    State.setEngine_setEngine]
  rcases busy with state | state <;> rw [state]

/-- With nothing in service, a disable is carried out at once (R89). -/
theorem State.reconfigure_of_resting (off : c.enabled = false)
    (resting : (s.engine b).state = .idle ∨ (s.engine b).state = .disabled ∨ (s.engine b).state = .faulted) :
    s.reconfigure b c = (s.setEngine b { s.engine b with config := c }).carryOutDisable b := by
  simp only [State.reconfigure, off, Bool.false_eq_true, if_false, State.disable, State.setEngine_engine_self]
  rcases resting with state | state | state <;> rw [state]

/-- A retry wait is ended first, its item with BRANCH_DOWN (R89). -/
theorem State.reconfigure_of_retryWait {it : Item} (off : c.enabled = false) (state : (s.engine b).state = .retryWait)
    (served : (s.engine b).inService = some it) :
    s.reconfigure b c =
      ((s.setEngine b { s.engine b with config := c, retryTimer := none, inService := none }).finishMember it
        .branchDown).carryOutDisable b := by
  simp only [State.reconfigure, off, Bool.false_eq_true, if_false, State.disable, State.setEngine_engine_self, state,
    State.dismiss, served, State.setEngine_setEngine]

/-- A disable carried out on a branch on which nothing waits ends nothing. -/
theorem State.carryOutDisable_of_empty (queue : (s.engine b).queue = []) (watches : ∀ t ∈ s.timers, s.timerOn b t = false) :
    s.carryOutDisable b = s.setEngine b
      { s.engine b with
        queue := [], state := .disabled, disablePending := false, retryTimer := none, recoveryTimer := none, copy := none
        wire := if (s.engine b).wire = .closingMark then .closingMark else .released } := by
  have kept : s.timers.filter (fun t => !s.timerOn b t) = s.timers :=
    List.filter_eq_self.mpr fun t ht => by rw [watches t ht]; rfl
  have none_ends : s.timers.filter (s.timerOn b) = [] :=
    List.filter_eq_nil_iff.mpr fun t ht => by rw [watches t ht]; decide
  rw [State.carryOutDisable_eq, State.flushBranch_replaced, State.endWork, State.watchItems, none_ends, kept, queue]
  rfl

/-- The timers of an entry that is admitted stand on no branch. -/
theorem State.enter_timerOn {i : EntryId} {e : Entry} (members : e.members = []) {t : WatchTimer}
    (none_waits : s.timerOn b t = false) : (s.enter i e).timerOn b t = false := by
  rw [State.timerOn_eq] at none_waits ⊢
  rw [State.enter_entry]
  split
  · rw [members]
    rfl
  · exact none_waits

end Reconfigure

section Answer

variable {s : State} {fr : Frame} {rest : List Frame} {i : EntryId} {b : BranchId} {c : BranchConfig}

/-- The byte of the payload by which the two rows of SET_BRANCH differ. -/
theorem Request.setBranch_enabled (b : BranchId) (c : BranchConfig) :
    (Request.setBranch b c).payload[1]? = some (yesNo c.enabled) := rfl

/-- A SET_BRANCH that replaces its engine and ends nothing is answered beside it. -/
theorem State.Takes.take_setBranch (h : s.Takes fr rest i) (request : fr.request = some (.setBranch b c)) {names : Frame → Bool}
    (named : names fr = true) {g : Engine}
    (configured : ∀ n k, ((s.gone fr rest n k).enter i (fr.record s.routes.generation)).reconfigure b c =
      ((s.gone fr rest n k).enter i (fr.record s.routes.generation)).setEngine b g) :
    s.take names =
      ((s.taken fr rest).answered fr i .ok (.setBranch b g.state g.disablePending)).setEngine b g := by
  refine h.takeHead_silent request named
    (act := fun u => (u.answered fr i .ok (.setBranch b g.state g.disablePending)).setEngine b g) (fun n k => ?_) fun _ _ => rfl
  rw [State.execute, State.setBranch, configured, State.setEngine_engine_self]
  exact State.enter_record_answer (s := (s.gone fr rest n k).setEngine b g) fr _ _ _

/-- An engine as a disable carried out at once leaves it (R89). -/
def Engine.disabled (g : Engine) : Engine :=
  { g with
    queue := [], state := .disabled, disablePending := false, retryTimer := none, recoveryTimer := none, copy := none
    wire := if g.wire = .closingMark then .closingMark else .released }

theorem State.answer_disabled {u : State} {g : Engine} (engine : u.engine b = g) :
    (u.carryOutDisable b).answer i .ok
        (.setBranch b ((u.carryOutDisable b).engine b).state ((u.carryOutDisable b).engine b).disablePending) =
      ((u.flushBranch b .branchDown).setEngine b g.disabled).completeEntry i .ok (.setBranch b .disabled false) := by
  subst engine
  rw [State.carryOutDisable_eq, State.setEngine_engine_self]
  rfl

end Answer

/-- Settles O29: each state of the engine has its rule; the answer is that of the engine as it then stands. -/
theorem setBranchEnablesOrDisables : Obligations.SetBranchEnablesOrDisables := by
  unfold Obligations.SetBranchEnablesOrDisables
  constructor
  · intro s fr rest i b c h request on st
    have enables : (Request.setBranch b c).payload[1]? ≠ some 0#8 := by
      rw [Request.setBranch_enabled, on]
      decide
    exact congrArg Host.Outcome.next (h.take_setBranch request (Frame.isKindExcept_of_request request enables)
      (g := { s.engine b with config := c, disablePending := false, state := st })
      fun n k => State.reconfigure_of_enabled on)
  · intro s fr rest i b c h request off g down disables
    have named : Frame.isKindExcept .setBranch 1 1#8 fr = true := by
      refine Frame.isKindExcept_of_request request ?_
      rw [Request.setBranch_enabled, off]
      decide
    have disabling (act : State → State) (it : Option Item) (r : Option Nat)
        (reconfigured : ∀ n k, ((s.gone fr rest n k).enter i (fr.record s.routes.generation)).reconfigure b c =
          (act ((s.gone fr rest n k).enter i (fr.record s.routes.generation))).carryOutDisable b)
        (engine : ∀ n k, (act ((s.gone fr rest n k).enter i (fr.record s.routes.generation))).engine b =
          { g with config := c, retryTimer := r, inService := it }) : disables act := by
      refine ⟨s.takeHead fr rest, congrArg Host.Outcome.next (h.take named), State.takeHead_of_checks fun n k => ?_⟩
      rw [h.checks_request request, State.execute, State.setBranch, reconfigured, State.answer_disabled (engine n k)]
      simp only [down, engine]
      rfl
    refine ⟨fun busy => ?_, fun resting => ?_, fun it state served => ?_, fun resting queue watches => ?_⟩
    · exact congrArg Host.Outcome.next (h.take_setBranch request named (g := { g with config := c, disablePending := true })
        fun n k => State.reconfigure_of_busy off busy)
    · exact disabling (fun u => u.setEngine b { g with config := c }) g.inService g.retryTimer
        (fun n k => State.reconfigure_of_resting off resting) fun n k => State.setEngine_engine_self ..
    · refine disabling
        (fun u => (u.setEngine b { g with config := c, retryTimer := none, inService := none }).finishMember it .branchDown)
        none none (fun n k => State.reconfigure_of_retryWait off state served) fun n k => ?_
      exact (State.engine_eq _ _ b (State.finishMember_engines _ it .branchDown)).trans (State.setEngine_engine_self ..)
    · have emptied : { g with config := c }.disabled = { { g with config := c }.disabled with queue := g.queue } := by
        rw [queue]
        rfl
      have configured (n : NoticeUnit) (k : Nat) :
          ((s.gone fr rest n k).enter i (fr.record s.routes.generation)).reconfigure b c =
            ((s.gone fr rest n k).enter i (fr.record s.routes.generation)).setEngine b { g with config := c }.disabled := by
        rw [State.reconfigure_of_resting off (by exact resting), State.carryOutDisable_of_empty, State.setEngine_engine_self,
          State.setEngine_setEngine]
        · rfl
        · rw [State.setEngine_engine_self]
          exact queue
        · exact fun t timer => State.enter_timerOn (s := s) rfl (watches t timer)
      have taken := h.take_setBranch request named configured
      rw [emptied] at taken
      exact congrArg Host.Outcome.next taken

end Sys2Proof.Machine
end

section
/-! PROOFS. CANCEL: its target is found, the effect on the target is taken, and the CANCEL completes after it. -/

namespace Sys2Proof.Machine

/-! ### The target of a CANCEL -/

section Target

variable {s : State} {fr : Frame} {rest : List Frame} {i j : EntryId} {target : Byte} {e : Entry}

theorem State.enter_findTag_none (none_has : ∀ k, (s.entry k).inUse = true → (s.entry k).tag ≠ target) :
    (s.enter i e).findTag i target = none := by
  refine List.find?_eq_none.mpr fun k _ hit => ?_
  simp only [Bool.and_eq_true, bne_iff_ne, beq_iff_eq] at hit
  obtain ⟨⟨ne, used⟩, tag⟩ := hit
  rw [State.enter_entry, if_neg ne] at used tag
  exact none_has k used tag

theorem State.enter_findTag (ne : j ≠ i) (used : (s.entry j).inUse = true) (tag : (s.entry j).tag = target)
    (only : ∀ k, (s.entry k).inUse = true → (s.entry k).tag = target → k = j) :
    (s.enter i e).findTag i target = some j := by
  cases found : (s.enter i e).findTag i target with
  | none =>
    have missed := List.find?_eq_none.mp found j (List.mem_finRange j)
    simp [State.enter_entry, ne, used, tag] at missed
  | some k =>
    have hit := List.find?_some found
    simp only [Bool.and_eq_true, bne_iff_ne, beq_iff_eq] at hit
    obtain ⟨⟨ne', used'⟩, tag'⟩ := hit
    rw [State.enter_entry, if_neg ne'] at used' tag'
    rw [only k used' tag']

/-- An entry in use is not the one that a request takes. -/
theorem State.Takes.ne_of_inUse (h : s.Takes fr rest i) (used : (s.entry j).inUse = true) : j ≠ i := by
  rintro rfl
  rw [State.lowestFree_inUse h.free] at used
  cases used

/-- What is done to another entry may come before the admission. -/
theorem State.enter_setEntry_ne (ne : j ≠ i) (x : Entry) : (s.enter i e).setEntry j x = (s.setEntry j x).enter i e := by
  have apart : i.val ≠ j.val := fun same => ne (Fin.ext same.symm)
  unfold State.enter State.setEntry
  cases e.cls <;> simp [OutstandingTable.raise, Table.set, Vector.set_comm _ _ apart]

theorem State.taken_routes (s : State) (fr : Frame) (rest : List Frame) : (s.taken fr rest).routes = s.routes := by
  unfold State.taken
  split <;> rfl

/-- A CANCEL whose effect `act` on its target leaves the notices alone. -/
theorem State.Takes.take_cancel (h : s.Takes fr rest i) (request : fr.request = some (.cancel target))
    (used : (s.entry j).inUse = true) (tag : (s.entry j).tag = target)
    (only : ∀ k, (s.entry k).inUse = true → (s.entry k).tag = target → k = j) {act : State → State} {st : Status}
    (cancels : ∀ n k, ((s.gone fr rest n k).enter i (fr.record s.routes.generation)).cancelTarget j =
      ((act (s.gone fr rest n k)).enter i (fr.record s.routes.generation), st))
    (silent : ∀ n k, (act (s.gone fr rest n k)).hand .credit = act ((s.gone fr rest n k).hand .credit)) :
    exec .cancel s =
      .next (((act (s.taken fr rest)).enter i
        { fr.record s.routes.generation with status := some st, reply := .cancel target }).joinCtl i) := by
  refine congrArg Host.Outcome.next (h.takeHead_silent request (Frame.isKind_of_request request)
    (act := fun u => ((act u).enter i
      { fr.record s.routes.generation with status := some st, reply := .cancel target }).joinCtl i)
    (fun n k => ?_) fun n k => ?_)
  · have found := State.enter_findTag (s := s.gone fr rest n k) (e := fr.record s.routes.generation) (h.ne_of_inUse used) used
      tag only
    simp only [State.execute, State.cancel, found, cancels]
    exact State.enter_record_answer fr _ _ _
  · exact congrArg (fun u => (State.enter u i _).joinCtl i) (silent n k)

end Target

/-! ### One member dropped -/

/-- The one member of an entry is dropped, and the entry completes CANCELLED (R37, R124, R129). -/
theorem State.dropMember_only {s : State} {j : EntryId} {m : Member} {reply : Reply} (working : (s.entry j).working)
    (members : (s.entry j).members = [m]) (posted : (s.entry j).posted = false)
    (replies : { s.entry j with members := [{ m with state := .dropped, outcome := some .dropped }] }.dataReply .cancelled =
      reply) :
    (s.dropMember ⟨j, 0⟩).settle j =
      (s.setEntry j
        { s.entry j with
          state := .complete, members := [{ m with state := .dropped, outcome := some .dropped }]
          status := some .cancelled, reply := reply }).setArbiter (s.arbiter.join (s.entry j).source j) := by
  have member : s.member ⟨j, 0⟩ = some m := by simp [State.member, members]
  obtain ⟨-, ended⟩ := State.setMember_settle .dropped (some .dropped) member working
  have only : (s.entry j).members.set 0 { m with state := .dropped, outcome := some .dropped } =
      [{ m with state := .dropped, outcome := some .dropped }] := by rw [members]; rfl
  simp only [only] at ended
  have decided : { s.entry j with members := [{ m with state := .dropped, outcome := some .dropped }] }.decidedStatus =
      .cancelled := by simp [Entry.decidedStatus]
  rw [State.dropMember, (ended (by simp)).1 posted, decided, replies]

theorem State.dropMember_branch {s : State} {j : EntryId} {e : Entry} {m : Member} {b : BranchId} {reply : Reply}
    (entry : s.entry j = e) (working : e.working) (members : e.members = [m]) (posted : e.posted = false)
    (source : e.source = .branch b)
    (replies : { e with members := [{ m with state := .dropped, outcome := some .dropped }] }.dataReply .cancelled = reply) :
    (s.dropMember ⟨j, 0⟩).settle j =
      (s.setEntry j
        { e with
          state := .complete, members := [{ m with state := .dropped, outcome := some .dropped }]
          status := some .cancelled, reply := reply }).joinBranch b j := by
  subst entry
  rw [State.dropMember_only working members posted replies]
  exact congrArg (fun src => State.setArbiter _ (s.arbiter.join src j)) source

/-- Settles O32: the state of the target decides, and the CANCEL completes after it. -/
theorem cancelSettlesByTheStateItFinds : Obligations.CancelSettlesByTheStateItFinds := by
  unfold Obligations.CancelSettlesByTheStateItFinds
  constructor
  · intro s fr rest i target h request
    refine ⟨fun none_has => ?_, fun j used tag only late => ?_⟩
    · refine congrArg Host.Outcome.next (h.takeHead_silent request (Frame.isKind_of_request request)
        (act := fun u => u.answered fr i .notFound (.cancel target)) (fun n k => ?_) fun _ _ => rfl)
      have found := State.enter_findTag_none (s := s.gone fr rest n k) (i := i) (e := fr.record s.routes.generation) none_has
      simp only [State.execute, State.cancel, found]
      exact State.enter_record_answer fr _ _ _
    · rw [State.answered, State.taken_routes]
      refine h.take_cancel request used tag only (act := id) (fun n k => ?_) fun _ _ => rfl
      have entry : ((s.gone fr rest n k).enter i (fr.record s.routes.generation)).entry j = s.entry j := by
        rw [State.enter_entry, if_neg (h.ne_of_inUse used)]
        rfl
      rcases late with state | state <;> rw [State.cancelTarget, entry, state] <;> rfl
  · intro s fr rest i j target h request used tag only e t own
    have ne : j ≠ i := h.ne_of_inUse used
    have entry (n : NoticeUnit) (k : Nat) :
        ((s.gone fr rest n k).enter i (fr.record s.routes.generation)).entry j = e := by
      rw [State.enter_entry, if_neg ne]
      rfl
    refine ⟨fun m a n w b state kind posted members pending address length watch source => ?_,
      fun m a n b state kind posted members pending address length source => ?_, fun state source => ?_⟩
    · let x : Entry :=
        { e with
          state := .complete, members := [{ m with state := .dropped, outcome := some .dropped }]
          status := some .cancelled, reply := .watch a n w.last }
      refine (h.take_cancel request used tag only (st := .ok)
        (act := fun u => ((u.setTimers (s.timers.filter (fun x => x.entry != j))).setEntry j x).joinBranch b j)
        (fun f k => ?_) fun _ _ => rfl).trans ?_
      · let u := s.gone fr rest f k
        have dropped := State.dropMember_branch (s := (u.enter i (fr.record s.routes.generation)).removeTimer j)
          (entry f k) (.inr (.inr state)) members posted source
          ((Entry.dataReply_watch (e := { e with members := [{ m with state := .dropped, outcome := some .dropped }] })
            kind address length .cancelled).trans (congrArg (fun o => Reply.watch a n (Option.bind o _)) watch))
        rw [State.cancelTarget, entry, show e.state = .waiting from state]
        refine Prod.ext (dropped.trans ?_) rfl
        exact congrArg (State.joinBranch · b j)
          (State.enter_setEntry_ne (s := u.setTimers (s.timers.filter (fun x => x.entry != j))) ne x)
      · exact congrArg (fun v => Host.Outcome.next ((State.joinBranch v b j).joinCtl i))
          (State.enter_setEntry_ne (s := t.setTimers (s.timers.filter (fun x => x.entry != j))) ne x).symm
    · let x : Entry :=
        { e with
          state := .complete, members := [{ m with state := .dropped, outcome := some .dropped }]
          status := some .cancelled, reply := .read a n none }
      let g : Engine :=
        { s.engine m.branch with queue := (s.engine m.branch).queue.filter (· != ⟨j, 0⟩) }
      refine (h.take_cancel request used tag only (st := .ok)
        (act := fun u => ((u.setEngine m.branch g).setEntry j x).joinBranch b j) (fun f k => ?_) fun _ _ => rfl).trans ?_
      · let u := s.gone fr rest f k
        have dropped := State.dropMember_branch (s := (u.enter i (fr.record s.routes.generation)).setEngine m.branch g)
          (entry f k) (.inl state) members posted source
          (Entry.dataReply_read (e := { e with members := [{ m with state := .dropped, outcome := some .dropped }] })
            kind address length .cancelled)
        have first : State.cancelMember j (u.enter i (fr.record s.routes.generation)) (m, 0) =
            ((u.enter i (fr.record s.routes.generation)).setEngine m.branch g).dropMember ⟨j, 0⟩ := by
          simp only [State.cancelMember, pending]
          rfl
        rw [State.cancelTarget, entry, show e.state = .queued from state, show e.members = [m] from members]
        refine Prod.ext ?_ rfl
        refine (congrArg (State.settle · j) first).trans (dropped.trans ?_)
        exact congrArg (State.joinBranch · b j) (State.enter_setEntry_ne (s := u.setEngine m.branch g) ne x)
      · exact congrArg (fun v => Host.Outcome.next ((State.joinBranch v b j).joinCtl i))
          (State.enter_setEntry_ne (s := t.setEngine m.branch g) ne x).symm
    · let x : Entry :=
        { e with state := .complete, status := some .cancelled, reply := .commit s.routes.generation none }
      let r : RouteUnit := { s.routes with pendingCommit := none }
      refine (h.take_cancel request used tag only (st := .ok)
        (act := fun u => ((u.setRoutes r).setEntry j x).joinCtl j) (fun f k => ?_) fun _ _ => rfl).trans ?_
      · let u := s.gone fr rest f k
        rw [State.cancelTarget, entry, show e.state = .held from state]
        refine Prod.ext ?_ rfl
        have completed : ((u.enter i (fr.record s.routes.generation)).setRoutes r).completeEntry j .cancelled
            (.commit s.routes.generation none) =
            (((u.enter i (fr.record s.routes.generation)).setRoutes r).setEntry j x).joinCtl j := by
          have same : ((u.enter i (fr.record s.routes.generation)).setRoutes r).entry j = e := entry f k
          rw [State.completeEntry, same]
          exact congrArg (fun src => State.setArbiter _ (u.arbiter.join src j)) source
        exact completed.trans (congrArg (State.joinCtl · j) (State.enter_setEntry_ne (s := u.setRoutes r) ne x))
      · exact congrArg (fun v => Host.Outcome.next ((State.joinCtl v j).joinCtl i))
          (State.enter_setEntry_ne (s := t.setRoutes r) ne x).symm

end Sys2Proof.Machine
end

section
/-! PROOFS. CANCEL of a target at work, member by member: what it does to the engines, to the entry and to nothing else. -/

namespace Sys2Proof.Machine

/-! ### One member -/

/-- The try or the recovery of a member is on the wire: a CANCEL lets it run (R124). -/
def State.stays (s : State) (m : Member) : Bool := m.state == .inService && (s.engine m.branch).state != .retryWait

/-- A member after a CANCEL (R123, R124). -/
def State.afterCancel (s : State) (m : Member) : Member :=
  if m.state = .pending ∨ (m.state = .inService ∧ s.stays m = false) then
    { m with state := .dropped, outcome := some .dropped }
  else m

/-- The engine of a member after a CANCEL: the item leaves the queue, or the retry wait ends (R124, R126). -/
def Engine.afterCancel (j : EntryId) (x : Member × Nat) (g : Engine) : Engine :=
  match x.1.state with
  | .finished | .dropped => g
  | .pending => { g with queue := g.queue.filter (· != ⟨j, x.2⟩) }
  | .inService =>
    if g.state = .retryWait then
      { g with state := .idle, retryTimer := none, inService := none, busyUsed := 0, checkUsed := 0 }
    else g

section Member

variable {s t : State} {j : EntryId} {x : Member × Nat}

theorem State.cancelMember_engine (s : State) (j : EntryId) (x : Member × Nat) (c : BranchId) :
    (State.cancelMember j s x).engine c = if c = x.1.branch then (s.engine c).afterCancel j x else s.engine c := by
  by_cases here : c = x.1.branch
  · subst here
    rw [if_pos rfl, State.cancelMember, Engine.afterCancel]
    cases x.1.state with
    | finished => rfl
    | dropped => rfl
    | pending => exact State.setEngine_engine_self ..
    | inService =>
      dsimp only
      split
      · exact State.setEngine_engine_self ..
      · rfl
  · rw [if_neg here, State.cancelMember]
    cases x.1.state with
    | finished => rfl
    | dropped => rfl
    | pending => exact State.setEngine_engine_ne _ _ here
    | inService =>
      dsimp only
      split
      · exact State.setEngine_engine_ne _ _ here
      · rfl

theorem State.dropMember_entry {k : Nat} {m : Member} (member : (s.entry j).members[k]? = some m) :
    (s.dropMember ⟨j, k⟩).entry j = { s.entry j with
      members := (s.entry j).members.set k { m with state := .dropped, outcome := some .dropped } } := by
  rw [State.dropMember, State.setMember, State.setEntry_entry_self, Entry.setMember_eq_set member]

theorem State.cancelMember_entry_self (member : (s.entry j).members[x.2]? = some x.1) :
    (State.cancelMember j s x).entry j = { s.entry j with
      members := (s.entry j).members.set x.2 (s.afterCancel x.1)
      cancelRequested := (s.entry j).cancelRequested || s.stays x.1 } := by
  have kept : (s.entry j).members.set x.2 x.1 = (s.entry j).members := by
    obtain ⟨inside, same⟩ := List.getElem?_eq_some_iff.mp member
    rw [← same, List.set_getElem_self]
  have settled (ends : x.1.state = .finished ∨ x.1.state = .dropped) : s.afterCancel x.1 = x.1 ∧ s.stays x.1 = false := by
    rcases ends with state | state <;> simp [State.afterCancel, State.stays, state]
  cases state : x.1.state with
  | finished =>
    obtain ⟨same, idle⟩ := settled (.inl state)
    rw [State.cancelMember, state, same, idle, kept, Bool.or_false]
  | dropped =>
    obtain ⟨same, idle⟩ := settled (.inr state)
    rw [State.cancelMember, state, same, idle, kept, Bool.or_false]
  | pending =>
    have idle : s.stays x.1 = false := by simp [State.stays, state]
    have drops : s.afterCancel x.1 = { x.1 with state := .dropped, outcome := some .dropped } := if_pos (.inl state)
    rw [State.cancelMember, state, drops, idle, Bool.or_false]
    exact State.dropMember_entry member
  | inService =>
    by_cases waits : (s.engine x.1.branch).state = .retryWait
    · have idle : s.stays x.1 = false := by simp [State.stays, waits]
      have drops : s.afterCancel x.1 = { x.1 with state := .dropped, outcome := some .dropped } :=
        if_pos (.inr ⟨state, idle⟩)
      have first : State.cancelMember j s x = (s.endRetryWait x.1.branch).dropMember ⟨j, x.2⟩ := by
        rw [State.cancelMember, state]
        exact if_pos waits
      rw [first, drops, idle, Bool.or_false]
      exact State.dropMember_entry member
    · have runs : s.stays x.1 = true := by simp [State.stays, state, waits]
      have same : s.afterCancel x.1 = x.1 := if_neg (by simp [state, runs])
      have first : State.cancelMember j s x = s.setEntry j { s.entry j with cancelRequested := true } := by
        rw [State.cancelMember, state]
        exact if_neg waits
      rw [first, same, runs, Bool.or_true, kept, State.setEntry_entry_self]

/-- A CANCEL at work touches the engines and its target, and nothing else. -/
def State.OnlyTarget (j : EntryId) (s t : State) : Prop := ∃ v e, t = (s.withEngines v).setEntry j e

theorem State.onlyTarget_refl (s : State) (j : EntryId) : s.OnlyTarget j s :=
  ⟨s.engines, s.entry j, by simp [State.withEngines, State.setEntry, State.entry, Table.set, Table.get]⟩

theorem State.OnlyTarget.trans {u : State} (h : s.OnlyTarget j t) (k : t.OnlyTarget j u) : s.OnlyTarget j u := by
  obtain ⟨v, e, rfl⟩ := h
  obtain ⟨v', e', rfl⟩ := k
  exact ⟨v', e', State.setEntry_setEntry (s.withEngines v') j e e'⟩

theorem State.OnlyTarget.eq (h : s.OnlyTarget j t) : t = (s.withEngines t.engines).setEntry j (t.entry j) := by
  obtain ⟨v, e, rfl⟩ := h
  rw [State.setEntry_entry_self]
  rfl

theorem State.cancelMember_onlyTarget (s : State) (j : EntryId) (x : Member × Nat) :
    s.OnlyTarget j (State.cancelMember j s x) := by
  rw [State.cancelMember]
  cases x.1.state with
  | finished => exact s.onlyTarget_refl j
  | dropped => exact s.onlyTarget_refl j
  | pending => exact ⟨_, _, rfl⟩
  | inService =>
    dsimp only
    split
    · exact ⟨_, _, rfl⟩
    · exact ⟨s.engines, _, rfl⟩

end Member

/-! ### Every member -/

section Members

variable {s : State} {j : EntryId}

theorem State.cancelMembers_onlyTarget (l : List (Member × Nat)) (s : State) :
    s.OnlyTarget j (l.foldl (State.cancelMember j) s) := by
  induction l generalizing s with
  | nil => exact s.onlyTarget_refl j
  | cons x l ih => exact (s.cancelMember_onlyTarget j x).trans (ih _)

/-- Members on distinct branches act each on its own engine. -/
theorem State.cancelMembers_engine {l : List (Member × Nat)} (once : (l.map (·.1.branch)).Nodup) (s : State) (b : BranchId) :
    (∀ x ∈ l, x.1.branch = b → (l.foldl (State.cancelMember j) s).engine b = (s.engine b).afterCancel j x) ∧
      ((∀ x ∈ l, x.1.branch ≠ b) → (l.foldl (State.cancelMember j) s).engine b = s.engine b) := by
  induction l generalizing s with
  | nil => exact ⟨nofun, fun _ => rfl⟩
  | cons x l ih =>
    rw [List.map_cons, List.nodup_cons] at once
    obtain ⟨hit, missed⟩ := ih once.2 (State.cancelMember j s x)
    rw [List.foldl_cons]
    refine ⟨fun y mem branch => ?_, fun none_there => ?_⟩
    · rcases List.mem_cons.mp mem with rfl | mem
      · rw [missed fun z hz same => once.1 (List.mem_map.mpr ⟨z, hz, same.trans branch.symm⟩), State.cancelMember_engine,
          if_pos branch.symm]
      · rw [hit y mem branch, State.cancelMember_engine, if_neg]
        exact fun same => once.1 (List.mem_map.mpr ⟨y, mem, branch.trans same⟩)
    · rw [missed fun z hz => none_there z (List.mem_cons_of_mem x hz), State.cancelMember_engine,
        if_neg (none_there x List.mem_cons_self).symm]

/-- Members on distinct branches, the ones in front of them gone through before. -/
theorem State.cancelMembers_entry_from (l : List Member) (front : List Member) (s : State)
    (members : (s.entry j).members = front ++ l) (once : (l.map (·.branch)).Nodup) :
    ((l.zipIdx front.length).foldl (State.cancelMember j) s).entry j = { s.entry j with
      members := front ++ l.map s.afterCancel
      cancelRequested := (s.entry j).cancelRequested || l.any s.stays } := by
  induction l generalizing s front with
  | nil =>
    rw [List.append_nil] at members
    simp [← members]
  | cons m l ih =>
    rw [List.map_cons, List.nodup_cons] at once
    have first : (s.entry j).members[front.length]? = some m := by simp [members]
    have entry := State.cancelMember_entry_self (x := (m, front.length)) first
    have set : (s.entry j).members.set front.length (s.afterCancel m) = (front ++ [s.afterCancel m]) ++ l := by
      simp [members]
    rw [set] at entry
    have same {y : Member} (mem : y ∈ l) :
        (State.cancelMember j s (m, front.length)).stays y = s.stays y := by
      rw [State.stays, State.stays, State.cancelMember_engine, if_neg]
      exact fun branch => once.1 (List.mem_map.mpr ⟨y, mem, branch⟩)
    have later := ih (front ++ [s.afterCancel m]) (State.cancelMember j s (m, front.length)) (by rw [entry]) once.2
    rw [List.length_append, List.length_singleton, entry] at later
    rw [List.zipIdx_cons, List.foldl_cons, later]
    have mapped : l.map (State.cancelMember j s (m, front.length)).afterCancel = l.map s.afterCancel :=
      List.map_congr_left fun y mem => by rw [State.afterCancel, State.afterCancel, same mem]
    have staying : l.any (State.cancelMember j s (m, front.length)).stays = l.any s.stays := by
      rw [Bool.eq_iff_iff, List.any_eq_true, List.any_eq_true]
      exact exists_congr fun y => and_congr_right fun mem => by rw [same mem]
    rw [mapped, staying]
    simp [Bool.or_assoc]

theorem State.cancelMembers_entry (s : State) (j : EntryId) (once : ((s.entry j).members.map (·.branch)).Nodup) :
    ((s.entry j).members.zipIdx.foldl (State.cancelMember j) s).entry j = { s.entry j with
      members := (s.entry j).members.map s.afterCancel
      cancelRequested := (s.entry j).cancelRequested || (s.entry j).members.any s.stays } :=
  State.cancelMembers_entry_from (s.entry j).members [] s rfl once

/-- The item leaves the queue of its branch with a CANCEL of its entry: its member is PENDING there. -/
def itemGone (j : EntryId) (members : List Member) (b : BranchId) (it : Item) : Bool :=
  it.entry == j &&
    (match members[it.member]? with
     | some m => m.state == .pending && m.branch == b
     | none => false)

theorem itemGone_iff {members : List Member} {b : BranchId} {it : Item} :
    itemGone j members b it = true ↔
      it.entry = j ∧ ∃ m, members[it.member]? = some m ∧ m.state = .pending ∧ m.branch = b := by
  unfold itemGone
  cases members[it.member]? <;> simp

/-- The engine of a branch after every member of a list on distinct branches. -/
theorem State.cancelMembers_engine_eq {members : List Member} (once : (members.map (·.branch)).Nodup) (s : State) (b : BranchId) :
    let g := { s.engine b with queue := (s.engine b).queue.filter (fun it => !itemGone j members b it) }
    (members.zipIdx.foldl (State.cancelMember j) s).engine b =
      if g.state = .retryWait ∧ (∃ m ∈ members, m.state = .inService ∧ m.branch = b) then
        { g with state := .idle, retryTimer := none, inService := none, busyUsed := 0, checkUsed := 0 }
      else g := by
  intro g
  have once' : (members.zipIdx.map (·.1.branch)).Nodup := by
    have fst : members.zipIdx.map (·.1.branch) = members.map (·.branch) := by
      rw [← Function.comp_def (fun m : Member => m.branch) Prod.fst, ← List.map_map, List.zipIdx_map_fst]
    rwa [fst]
  obtain ⟨hit, missed⟩ := State.cancelMembers_engine (j := j) once' s b
  have stand (none_leaves : ∀ it, itemGone j members b it = false) : g = s.engine b := by
    have all : (s.engine b).queue.filter (fun it => !itemGone j members b it) = (s.engine b).queue :=
      List.filter_eq_self.mpr fun it _ => by rw [none_leaves it]; rfl
    simp only [g, all]
  by_cases there : ∃ m ∈ members, m.branch = b
  · obtain ⟨m, mem, branch⟩ := there
    obtain ⟨k, inside, at_k⟩ := List.getElem_of_mem mem
    have member : members[k]? = some m := List.getElem?_eq_some_iff.mpr ⟨inside, at_k⟩
    have only {k' : Nat} {m' : Member} (member' : members[k']? = some m') (branch' : m'.branch = b) : k' = k := by
      obtain ⟨inside', at_k'⟩ := List.getElem?_eq_some_iff.mp member'
      refine (List.Nodup.getElem_inj_iff once (hi := by simpa using inside') (hj := by simpa using inside)).mp ?_
      simp [at_k, at_k', branch, branch']
    have only_member {m' : Member} (mem' : m' ∈ members) (branch' : m'.branch = b) : m' = m := by
      obtain ⟨k', inside', at_k'⟩ := List.getElem_of_mem mem'
      have member' : members[k']? = some m' := List.getElem?_eq_some_iff.mpr ⟨inside', at_k'⟩
      rw [only member' branch', member] at member'
      exact (Option.some.inj member').symm
    have leaves {it : Item} (goes : itemGone j members b it = true) : m.state = .pending ∧ it = ⟨j, k⟩ := by
      obtain ⟨entry, m', member', pending, branch'⟩ := itemGone_iff.mp goes
      obtain rfl := only_member (List.mem_of_getElem? member') branch'
      exact ⟨pending, by rw [← entry, ← only member' branch']⟩
    have unserved (state : m.state ≠ .inService) : ¬(g.state = .retryWait ∧ ∃ m ∈ members, m.state = .inService ∧ m.branch = b) := by
      rintro ⟨-, m', mem', inService, branch'⟩
      exact state (only_member mem' branch' ▸ inService)
    rw [hit (m, k) (List.mem_zipIdx_iff_getElem?.mpr member) branch, Engine.afterCancel]
    have unqueued (state : m.state ≠ .pending) : g = s.engine b :=
      stand fun it => Bool.eq_false_iff.mpr fun goes => state (leaves goes).1
    cases state : m.state with
    | finished => rw [if_neg (unserved (by simp [state])), unqueued (by simp [state])]
    | dropped => rw [if_neg (unserved (by simp [state])), unqueued (by simp [state])]
    | pending =>
      rw [if_neg (unserved (by simp [state]))]
      have same : (fun it : Item => it != ⟨j, k⟩) = fun it => !itemGone j members b it := by
        funext it
        by_cases here : it = ⟨j, k⟩
        · subst here
          simp [(itemGone_iff (it := ⟨j, k⟩)).mpr ⟨rfl, m, member, state, branch⟩]
        · have stays : itemGone j members b it = false := Bool.eq_false_iff.mpr fun goes => here (leaves goes).2
          simp [stays, here]
      simp only [g, ← same]
    | inService =>
      have served : ∃ m ∈ members, m.state = .inService ∧ m.branch = b := ⟨m, mem, state, branch⟩
      rw [unqueued (by simp [state])]
      simp only [served, and_true]
  · have apart {m : Member} (mem : m ∈ members) : m.branch ≠ b := fun branch => there ⟨m, mem, branch⟩
    rw [missed fun x hx => apart (List.mem_zipIdx_iff_getElem?.mp hx |> List.mem_of_getElem?), if_neg, stand]
    · refine fun it => Bool.eq_false_iff.mpr fun goes => ?_
      obtain ⟨-, m, member, -, branch⟩ := itemGone_iff.mp goes
      exact apart (List.mem_of_getElem? member) branch
    · rintro ⟨-, m, mem, -, branch⟩
      exact apart mem branch

end Members

end Sys2Proof.Machine
end

section
/-! PROOFS. CANCEL of a target at work: the completion test after its members, and the answer. -/

namespace Sys2Proof.Machine

/-- A state after a CANCEL of its entry `j`, at work. -/
def State.cancelled (s : State) (j : EntryId) : State :=
  ((s.entry j).members.zipIdx.foldl (State.cancelMember j) s).settle j

/-- The record of an entry at work after a CANCEL of its members, before the completion test. -/
def State.cancelledRecord (s : State) (j : EntryId) : Entry :=
  { s.entry j with
    members := (s.entry j).members.map s.afterCancel
    cancelRequested := (s.entry j).cancelRequested || (s.entry j).members.any s.stays }

section Cancelled

variable {s : State} {j : EntryId}

theorem State.cancelTarget_of_atWork (atWork : (s.entry j).state = .queued ∨ (s.entry j).state = .active) :
    s.cancelTarget j = (s.cancelled j, .ok) := by
  rcases atWork with state | state <;> rw [State.cancelTarget, state] <;> rfl

theorem State.cancelMembers_eq (once : ((s.entry j).members.map (·.branch)).Nodup) :
    ∃ v, (s.entry j).members.zipIdx.foldl (State.cancelMember j) s = (s.withEngines v).setEntry j (s.cancelledRecord j) := by
  have only := (State.cancelMembers_onlyTarget (j := j) (s.entry j).members.zipIdx s).eq
  rw [s.cancelMembers_entry j once] at only
  exact ⟨_, only⟩

theorem State.cancelled_entry_ne {k : EntryId} (ne : k ≠ j) : (s.cancelled j).entry k = s.entry k := by
  obtain ⟨v, e, same⟩ := State.cancelMembers_onlyTarget (j := j) (s.entry j).members.zipIdx s
  rw [State.cancelled, State.settle_entry_ne _ ne, same]
  exact State.setEntry_entry_ne _ e ne

@[simp] theorem State.cancelled_timers : (s.cancelled j).timers = s.timers := by
  obtain ⟨v, e, same⟩ := State.cancelMembers_onlyTarget (j := j) (s.entry j).members.zipIdx s
  rw [State.cancelled, State.settle_timers, same]
  rfl

theorem State.cancelled_engine (b : BranchId) :
    (s.cancelled j).engine b = ((s.entry j).members.zipIdx.foldl (State.cancelMember j) s).engine b :=
  State.engine_eq _ _ b (State.settle_engines _ j)

theorem State.afterCancel_unfinished {m : Member} :
    (s.afterCancel m).state = .pending ∨ (s.afterCancel m).state = .inService ↔ s.stays m = true := by
  cases state : m.state <;> cases runs : s.stays m <;>
    simp_all [State.afterCancel, State.stays]

theorem State.cancelledRecord_unfinished : (s.cancelledRecord j).unfinished = (s.entry j).members.any s.stays := by
  rw [Bool.eq_iff_iff, Entry.unfinished_iff, List.any_eq_true]
  constructor
  · rintro ⟨x, mem, left⟩
    obtain ⟨m, member, rfl⟩ := List.mem_map.mp mem
    exact ⟨m, member, State.afterCancel_unfinished.mp left⟩
  · rintro ⟨m, member, runs⟩
    exact ⟨_, List.mem_map_of_mem member, State.afterCancel_unfinished.mpr runs⟩

/-- While a member's try or recovery runs, the target is left at work (R124). -/
theorem State.cancelled_of_staying (once : ((s.entry j).members.map (·.branch)).Nodup)
    (runs : (s.entry j).members.any s.stays = true) :
    ∃ v, s.cancelled j = (s.withEngines v).setEntry j
      { s.entry j with members := (s.entry j).members.map s.afterCancel, cancelRequested := true } := by
  have record : s.cancelledRecord j =
      { s.entry j with members := (s.entry j).members.map s.afterCancel, cancelRequested := true } := by
    rw [State.cancelledRecord, runs, Bool.or_true]
  obtain ⟨v, acted⟩ := State.cancelMembers_eq once
  refine ⟨v, ?_⟩
  rw [State.cancelled, acted, State.settle_of_unfinished, record]
  rw [State.setEntry_entry_self, State.cancelledRecord_unfinished, runs]

/-- With no member on the wire the target ends CANCELLED (R37, R115, R124). -/
theorem State.cancelled_of_ended (atWork : (s.entry j).state = .queued ∨ (s.entry j).state = .active)
    (once : ((s.entry j).members.map (·.branch)).Nodup) (ended : (s.entry j).members.any s.stays = false)
    (some_dropped : ∃ m ∈ (s.entry j).members, m.state = .pending ∨ m.state = .inService) :
    ∃ v, ((s.entry j).posted = false →
      s.cancelled j = ((s.withEngines v).setEntry j
        { s.entry j with
          state := .complete, status := some .cancelled, members := (s.entry j).members.map s.afterCancel
          reply := { s.entry j with members := (s.entry j).members.map s.afterCancel }.dataReply .cancelled }).setArbiter
        (s.arbiter.join (s.entry j).source j)) ∧
      ((s.entry j).posted = true → s.cancelled j = (s.withEngines v).freeEntry j) := by
  have record : s.cancelledRecord j = { s.entry j with members := (s.entry j).members.map s.afterCancel } := by
    rw [State.cancelledRecord, ended, Bool.or_false]
  have decided : (s.cancelledRecord j).decidedStatus = .cancelled := by
    obtain ⟨m, member, left⟩ := some_dropped
    have idle : s.stays m = false := Bool.eq_false_iff.mpr fun runs => List.any_eq_false.mp ended m member runs
    have drops : s.afterCancel m = { m with state := .dropped, outcome := some .dropped } :=
      if_pos (left.imp id fun inService => ⟨inService, idle⟩)
    have dropped : (s.cancelledRecord j).members.any (fun m => m.state == .dropped) = true :=
      List.any_eq_true.mpr ⟨_, List.mem_map_of_mem member, by rw [drops]; rfl⟩
    rw [Entry.decidedStatus, dropped, Bool.or_true, if_pos rfl]
  obtain ⟨v, acted⟩ := State.cancelMembers_eq once
  obtain ⟨unposted, posted⟩ := State.settle_setEntry (s := s.withEngines v) (i := j) (e := s.cancelledRecord j)
    (atWork.imp id .inl) rfl rfl (by rw [State.cancelledRecord_unfinished, ended])
  refine ⟨v, fun h => ?_, fun h => ?_⟩
  · rw [State.cancelled, acted]
    refine (unposted h).trans ?_
    rw [decided, record]
    rfl
  · rw [State.cancelled, acted]
    refine (posted h).trans ?_
    rw [decided, if_pos (.inr rfl)]

end Cancelled

/-! ### The reply of a cancelled target -/

section Reply

variable {e : Entry} {a : Half} {n : Nat}

theorem Entry.cancelled_read (kind : e.kind = 0x01#8) (address : e.address = some a) (length : e.length = some n) :
    e.dataReply .cancelled = .read a n none := Entry.dataReply_read kind address length .cancelled

theorem Entry.cancelled_write_direct (kind : e.kind = 0x02#8) (group : e.group = false) (address : e.address = some a)
    (length : e.length = some n) : e.dataReply .cancelled = .write a n [] := by
  rw [Entry.dataReply_write kind address length, group]
  rfl

theorem Entry.cancelled_write_group {l : List (BranchId × Status)} (kind : e.kind = 0x02#8) (group : e.group = true)
    (address : e.address = some a) (length : e.length = some n)
    (outcomes : e.members.map (fun m => (m.branch, m.outcome)) = l.map (fun x => (x.1, some x.2))) :
    e.dataReply .cancelled = .write a n l := by
  have lists : e.outcomes = l := by
    have read := congrArg (List.map fun x : BranchId × Option Status => (x.1, x.2.getD .ok)) outcomes
    simpa [Entry.outcomes, Function.comp_def] using read
  rw [Entry.dataReply_write kind address length, if_pos group, lists]

end Reply

/-! ### The taking of a head, with its notices apart -/

/-- What a taken head leaves is what its checks leave, with the notices of the taking beside theirs (R160). -/
theorem State.takeHead_apart (s : State) (fr : Frame) (rest : List Frame) :
    ∃ n k, s.takeHead fr rest =
        { (s.gone fr rest n k).runChecks fr with notices := (s.takeHead fr rest).notices } ∧
      (((s.gone fr rest n k).runChecks fr).notices = n → (s.takeHead fr rest).notices = (s.taken fr rest).notices) := by
  rcases s.takeHead_didTaking fr rest with first | ⟨due, last⟩
  · obtain ⟨n, k, taken⟩ := s.taken_eq_gone fr rest
    refine ⟨n, k, ?_, fun same => ?_⟩
    · rw [first, taken]
    · rw [first, taken]
      exact same
  · refine ⟨s.notices, s.freeCount + 1, ?_, fun same => ?_⟩
    · rw [last]
      rfl
    · rw [last, State.taken, if_pos due]
      exact congrArg (NoticeUnit.hand · .credit) same

/-- Where an entry stands that is answered on CTL. -/
theorem State.answer_sourceQueue {s : State} {i : EntryId} (ctl : (s.entry i).source = .ctl) (status : Status) (reply : Reply)
    (src : Source) :
    (s.answer i status reply).sourceQueue src = if src = .ctl then s.sourceQueue src ++ [i] else s.sourceQueue src := by
  have joined := State.join_sourceQueue
    (s.setEntry i { s.entry i with state := .complete, status := some status, reply := reply }) (s.entry i).source src i
  refine joined.trans ?_
  rw [ctl]
  cases src <;> rfl

section Ended

variable {s : State} {j : EntryId} {e : Entry}

/-- What is left of an unposted target that a CANCEL ends: its record and its place in its source. -/
theorem State.cancelled_unposted (entry : s.entry j = e) (atWork : e.state = .queued ∨ e.state = .active)
    (once : (e.members.map (·.branch)).Nodup) (ended : e.members.any s.stays = false)
    (some_dropped : ∃ m ∈ e.members, m.state = .pending ∨ m.state = .inService) (posted : e.posted = false) :
    ((s.cancelled j).entry j =
      { e with
        state := .complete, status := some .cancelled, members := e.members.map s.afterCancel
        reply := { e with members := e.members.map s.afterCancel }.dataReply .cancelled }) ∧
      ∀ src, (s.cancelled j).sourceQueue src =
        if e.source = src ∧ e.source ≠ .ntc then s.sourceQueue src ++ [j] else s.sourceQueue src := by
  subst entry
  obtain ⟨v, unposted, -⟩ := State.cancelled_of_ended atWork once ended some_dropped
  rw [unposted posted]
  refine ⟨State.setEntry_entry_self .., fun src => ?_⟩
  exact State.join_sourceQueue ((s.withEngines v).setEntry j _) (s.entry j).source src j

/-- A posted target that a CANCEL ends is FREE, without notice (R40). -/
theorem State.cancelled_posted (entry : s.entry j = e) (atWork : e.state = .queued ∨ e.state = .active)
    (once : (e.members.map (·.branch)).Nodup) (ended : e.members.any s.stays = false)
    (some_dropped : ∃ m ∈ e.members, m.state = .pending ∨ m.state = .inService) (posted : e.posted = true) :
    (s.cancelled j).entry j = Entry.free ∧ (s.cancelled j).notices = s.notices ∧
      (∀ src, (s.cancelled j).sourceQueue src = s.sourceQueue src) ∧
      (e.cls = .data → (s.cancelled j).table.dataInUse = s.table.dataInUse - 1) := by
  subst entry
  obtain ⟨v, -, freed⟩ := State.cancelled_of_ended atWork once ended some_dropped
  have used : ((s.withEngines v).entry j).inUse = true := Entry.working.inUse (atWork.imp id .inl)
  rw [freed posted]
  refine ⟨?_, State.freeEntry_notices .., fun src => ?_, fun data => ?_⟩
  · rw [State.freeEntry_entry _ j j used, if_pos rfl]
  · rw [State.freeEntry, if_pos used]
    cases src <;> rfl
  · rw [State.freeEntry_of_inUse used]
    exact if_pos data

/-- A target of which a member stays on the wire. -/
theorem State.cancelled_staying (entry : s.entry j = e) (once : (e.members.map (·.branch)).Nodup)
    (runs : e.members.any s.stays = true) :
    (s.cancelled j).entry j = { e with members := e.members.map s.afterCancel, cancelRequested := true } ∧
      ∀ src, (s.cancelled j).sourceQueue src = s.sourceQueue src := by
  subst entry
  obtain ⟨v, stayed⟩ := State.cancelled_of_staying once runs
  rw [stayed]
  exact ⟨State.setEntry_entry_self .., fun src => by cases src <;> rfl⟩

end Ended

/-- Settles O33: the members, the completion test, and the answer of the CANCEL after it. -/
theorem cancelActsMemberByMember : Obligations.CancelActsMemberByMember := by
  unfold Obligations.CancelActsMemberByMember
  intro s fr rest i j target h request used tag only atWork source once e stays after gone
  have ne : j ≠ i := h.ne_of_inUse used
  have named : Frame.isKind .cancel fr = true := Frame.isKind_of_request request
  have control : classOf fr.kind = .control := by rw [Frame.kind_of_request request]; rfl
  obtain ⟨n, k, apart, notices⟩ := s.takeHead_apart fr rest
  have executed : exec .cancel s = .next (s.takeHead fr rest) := congrArg Host.Outcome.next (h.take named)
  let w := (s.gone fr rest n k).enter i (fr.record s.routes.generation)
  have entryW : w.entry j = e := (State.enter_entry ..).trans (if_neg ne)
  have checked : (s.gone fr rest n k).runChecks fr = (w.cancelled j).answer i .ok (.cancel target) := by
    have found : w.findTag i target = some j := State.enter_findTag (s := s.gone fr rest n k) ne used tag only
    have cancels : w.cancelTarget j = (w.cancelled j, .ok) := State.cancelTarget_of_atWork (by rwa [entryW])
    rw [h.checks_request request]
    show w.cancel i target = _
    simp only [State.cancel, found, cancels]
  rw [checked] at apart notices
  have own : (w.cancelled j).entry i = fr.record s.routes.generation :=
    (State.cancelled_entry_ne ne.symm).trans (State.enter_entry_self ..)
  have untouched (x : EntryId) (other : x ≠ j) (apart_i : x ≠ i) : (w.cancelled j).entry x = s.entry x :=
    (State.cancelled_entry_ne other).trans ((State.enter_entry ..).trans (if_neg apart_i))
  have timers : (w.cancelled j).timers = s.timers := State.cancelled_timers
  have engine (b : BranchId) := (State.cancelled_engine (s := w) (j := j) b).trans
    (State.cancelMembers_engine_eq (by rwa [entryW]) w b)
  have staying := State.cancelled_staying entryW once
  have unposted := State.cancelled_unposted entryW atWork once
  have posted := State.cancelled_posted entryW atWork once
  have dataInUse : w.table.dataInUse = s.table.dataInUse := State.enter_dataInUse control
  have standing (src : Source) : w.sourceQueue src = s.sourceQueue src := by cases src <;> rfl
  rw [entryW] at engine
  generalize s.takeHead fr rest = t at *
  generalize w.cancelled j = z at *
  have entry (x : EntryId) : t.entry x =
      if x = i then { fr.record s.routes.generation with status := some .ok, reply := .cancel target } else z.entry x := by
    refine (congrArg (State.entry · x) apart).trans ((State.completeEntry_entry z i x .ok (.cancel target)).trans ?_)
    rw [own]
    rfl
  have queue (src : Source) : t.sourceQueue src = if src = .ctl then z.sourceQueue src ++ [i] else z.sourceQueue src := by
    rw [← State.answer_sourceQueue (by rw [own]; rfl) .ok (.cancel target) src, apart]
    cases src <;> rfl
  have target_entry : t.entry j = z.entry j := (entry j).trans (if_neg ne)
  refine ⟨t, executed, (entry i).trans (if_pos rfl), fun runs => ?_, fun ended some_dropped => ⟨fun kept => ?_, fun freed => ?_⟩,
    fun x other apart_i => ?_, ?_, fun b => ?_⟩
  · obtain ⟨left, queues⟩ := staying runs
    exact ⟨target_entry.trans left, by rw [queue, if_pos rfl, queues, standing]⟩
  · obtain ⟨left, queues⟩ := unposted ended some_dropped kept
    let record : Entry := { e with members := e.members.map after }
    have left' : t.entry j =
        { record with state := .complete, status := some .cancelled, reply := record.dataReply .cancelled } :=
      target_entry.trans left
    refine ⟨by rw [left'], fun a n address length => ?_, ?_, fun b => ?_⟩
    · rw [left']
      exact ⟨fun kind => Entry.cancelled_read (e := record) kind address length,
        fun kind group => Entry.cancelled_write_direct (e := record) kind group address length,
        fun l kind group outcomes => Entry.cancelled_write_group (e := record) kind group address length outcomes,
        fun kind => Entry.dataReply_watch (e := record) kind address length .cancelled⟩
    · rw [queue, if_pos rfl, queues, standing]
      by_cases ctl : e.source = .ctl
      · simp [ctl]
      · simp [ctl]
    · rw [queue, if_neg nofun, queues, standing]
      by_cases there : e.source = .branch b
      · simp [there]
      · simp [there]
  · obtain ⟨left, silent, queues, data⟩ := posted ended some_dropped freed
    refine ⟨target_entry.trans left, notices silent, by rw [queue, if_pos rfl, queues, standing], fun cls => ?_⟩
    exact (congrArg (fun u : State => u.table.dataInUse) apart).trans ((data cls).trans (congrArg (· - 1) dataInUse))
  · rw [entry, if_neg apart_i, untouched x other apart_i]
  · exact (congrArg State.timers apart).trans timers
  · exact (congrArg (State.engine · b) apart).trans (engine b)

end Sys2Proof.Machine
end
